-- ==== Sys2Proof/Word.lean ====
section
/-! DEFINITION. The word types and the canonical sparse store that every memory and register file of the model uses. -/

namespace Sys2Proof

/-- A native word: 40-bit two's complement (chapter "Words, numbers and units"). -/
abbrev Word := BitVec 40
/-- A set-up register. -/
abbrev Reg := BitVec 32
/-- A physical memory word: DATA, CHK and VAC (R117). -/
abbrev Phys := BitVec 48
/-- A point of TIME48, in fine ticks of 80 ps, class K (R48). -/
abbrev Time := BitVec 48
/-- A timestamp: TIME48 bits [31:0] (R48). -/
abbrev Stamp := BitVec 32

/-- A sparse store: address and content, addresses strictly rising, no entry equal to the content
an unlisted address reads as. -/
abbrev Cells (α : Type) := List (Nat × α)

namespace Cells

variable {α : Type}

/-- The content at `k`; an unlisted address reads as `d`. -/
def get (d : α) (k : Nat) : Cells α → α
  | [] => d
  | (a, v) :: t => if a = k then v else get d k t

/-- Enters `(k, v)` in front of the first greater address. -/
def insert (k : Nat) (v : α) : Cells α → Cells α
  | [] => [(k, v)]
  | (a, w) :: t => if k < a then (k, v) :: (a, w) :: t else (a, w) :: insert k v t

/-- Removes every entry at `k`. -/
def erase (k : Nat) : Cells α → Cells α
  | [] => []
  | (a, w) :: t => if a = k then erase k t else (a, w) :: erase k t

/-- Writes `v` at `k`; writing the default removes the entry. -/
def put [DecidableEq α] (d : α) (k : Nat) (v : α) (l : Cells α) : Cells α :=
  if v = d then erase k l else insert k v (erase k l)

/-- Every address of the store is above `b`, and the addresses rise. -/
def rising (b : Nat) : Cells α → Bool
  | [] => true
  | (a, _) :: t => decide (b ≤ a) && rising (a + 1) t

/-- No entry equals what its address would read as if it were not listed. -/
def lean [DecidableEq α] (d : Nat → α) : Cells α → Bool
  | [] => true
  | (a, v) :: t => decide (v ≠ d a) && lean d t

/-- The canonical form. -/
def wf [DecidableEq α] (d : Nat → α) (l : Cells α) : Bool := rising 0 l && lean d l

end Cells

end Sys2Proof
end

