-- ==== Sys2Proof/Syntax.lean ====
section
/-! DEFINITION. The commands of the block: one constructor of `Instr` per row of the table of operations and events.
What the part itself cannot know (a measured value, the bytes a host read returns, a level on a pin) is an operand. -/

namespace Sys2Proof

/-- The agents that reach registers: F0, F(n+1) of easel n through BAR0, the safety port (R379, R380), and a function through BAR2,
where an address is an offset from the start of its MSI-X table (R130). -/
inductive Agent where
  | f0
  | fn (e : Fin 8)
  | sp
  | bar2 (fn : Fin 9)
deriving DecidableEq, Repr

/-- An event ring: that of F0 or that of an easel. -/
inductive RingId where
  | f0
  | easel (e : Fin 8)
deriving DecidableEq, Repr

/-- The two staging buffers of an easel (R144); F0 has event staging only. -/
inductive StageKind where
  | event
  | sample
deriving DecidableEq, Repr

/-- What starts an easel reset; the order is that of ARG1 of EASEL_RESET_DONE (R164). -/
inductive ResetCause where
  | f0OrSafetyPort
  | erstCtrl
  | watchdog
  | functionLevelReset
deriving DecidableEq, Repr

/-- What makes a link fault (R147): the link leaves DL_Active, or Bus Master Enable of one function clears. -/
inductive LinkCause where
  | dlDown
  | bmeClear (fn : Fin 9)
deriving DecidableEq, Repr

/-- The causes of device reset; the order is that of the bits of RST_CAUSE (R347). -/
inductive DeviceResetCause where
  | por
  | supply
  | nrst
  | dwd
deriving DecidableEq, Repr

/-- Where a supply stands after a crossing (R340, R341), from the bottom: below its reset level; below its warning
level; in the band between warning and resume; at or above its resume level. -/
inductive SupplyLevel where
  | belowReset
  | belowWarning
  | inBand
  | aboveResume
deriving DecidableEq, Repr

/-- What the loss detector has measured on BOSC (R57): fine ticks since the last rising edge of TREF, or how many BOSC coarse
ticks 1,024 consecutive TREF cycles took. -/
inductive TrefView where
  | gap (ticks : Nat)
  | window (boscTicks : Nat)
deriving DecidableEq, Repr

/-- What a pod measures itself: V_STORE as a code of 20 mV, whether ALT is present at its level, the die temperature (R229). -/
structure PodLive where
  vstore : BitVec 8
  alt : Bool
  temp : BitVec 16
deriving DecidableEq, Repr

/-- The commands: rows of the table, with their operands. -/
inductive Instr where
  /-- DOWNBEAT (R22): An easel's downbeat fires: the final pass and the due transactions commit, completions are queued and the next sketch is released. -/
  | downbeat (e : Fin 8)
  /-- INPUT_DEADLINE (R79): An input has not landed by its DEADLINE, so the pass slips. -/
  | inputDeadline (e : Fin 8) (i : Fin 64)
  /-- FENCE_REACHED (R79): A pass that is not final at the fence slips. -/
  | fenceReached (e : Fin 8)
  /-- TEMPO_WINDOW_END (R38): At the end of each 256-tick window, the tempo monitor publishes the largest ring result in TEMPO. -/
  | tempoWindowEnd (trips : Vector Nat 16)
  /-- BOSC_TRIM (R43): Once every 1 ms on TREF, the device trims BOSC against TREF. -/
  | boscTrim (word : Int)
  /-- FINE_CALIBRATION (R44): A delay-line calibration completes each 1,024 coarse ticks and the lines swap roles. -/
  | fineCalibration (n : BitVec 9)
  /-- CAPTURE_READ (R384): A read of the low register of a capturing pair captures all of its bits into the reading agent's copy. -/
  | captureRead (by_ : Agent) (addr : BitVec 24) (be : BitVec 4)
  /-- RUN_SET (R76): A write that sets DB_CTRL.RUN starts admission and places the first downbeat. -/
  | runSet (e : Fin 8) (by_ : Agent)
  /-- RUN_CLEAR (R54): A write that clears RUN stops the generator from the first downbeat at least 40 ns later. -/
  | runClear (e : Fin 8) (by_ : Agent)
  /-- TREF_LOSS (R57): TREF is detected lost, and the timebase enters BLEND_TO_BOSC. -/
  | trefLoss (seen : TrefView)
  /-- REF_BLEND_STEP (R58): Each 100 ns step of a reference blend moves the frequency word toward its captured target. -/
  | refBlendStep
  /-- REF_BLEND_COMPLETE (R60): A reference blend completes and the timebase enters ON_BOSC or ON_TREF. -/
  | refBlendComplete
  /-- QUALIFY_START (R60): In ON_BOSC with TREF allowed, a TREF edge moves the timebase to QUALIFY. -/
  | qualifyStart
  /-- TREF_QUALIFIED (R59): The qualification count reaches 1,024 good cycles, and BLEND_TO_TREF starts. -/
  | trefQualified (span : Nat) (word : Int)
  /-- TREF_MODE_WRITE (R409): A write of TB_CTRL.TREF_MODE changes the reference input mode at once. -/
  | trefModeWrite (by_ : Agent) (mode : BitVec 2)
  /-- TREF_EN_WRITE (R60): A write of TB_CTRL.TREF_EN allows or forbids TREF as the timebase source. -/
  | trefEnWrite (by_ : Agent) (on : Bool)
  /-- FORCE_BOSC_WRITE (R60): A write of TB_CTRL.FORCE_BOSC forces the timebase onto BOSC or releases it. -/
  | forceBoscWrite (by_ : Agent) (on : Bool)
  /-- IMAGE_LOAD (R71): A write of IMG_CTRL.LOAD = 1 starts an image load into the shadow half. -/
  | imageLoad (by_ : Agent)
  /-- IMAGE_DMA_COMPLETE (R71): The image DMA read into the shadow half completes or fails with DMA_FAIL. -/
  | imageDmaComplete (data : Option (List (BitVec 64)))
  /-- IMAGE_VERIFY_COMPLETE (R66): Signature verification and admission end, RESULT is set and IMAGE_DONE is posted. -/
  | imageVerifyComplete
  /-- SWAP (R410): A write of IMG_CTRL.SWAP = 1 arms a swap of the armed shadow image. -/
  | swap (by_ : Agent)
  /-- SWAP_TIME_REACHED (R72): SWAP_TIME is reached: stopped easels change image, and SWAP_DONE is posted once all have changed. -/
  | swapTimeReached
  /-- FORCE_LIMP (R81): A write of LIMP_CTRL.FORCE_LIMP requests limp at the next downbeat. -/
  | forceLimp (e : Fin 8) (by_ : Agent)
  /-- FORCE_HRD (R81): A write of LIMP_CTRL.FORCE_HRD requests hold-and-ramp-down at the next downbeat. -/
  | forceHrd (e : Fin 8) (by_ : Agent)
  /-- TILE_RUN_START (R68): An idle tile starts the ready run with the lowest PRIO and clears ACC and C. -/
  | tileRunStart (t : Fin 16)
  /-- NOP (R88): Slot opcode NOP does nothing for one HU. -/
  | nop (t : Fin 16)
  /-- MOV (R88): Slot opcode MOV copies A to D. -/
  | mov (t : Fin 16)
  /-- ADD (R88): Slot opcode ADD writes the saturated sum of A and B. -/
  | add (t : Fin 16)
  /-- SUB (R88): Slot opcode SUB writes the saturated difference A − B. -/
  | sub (t : Fin 16)
  /-- MIN (R88): Slot opcode MIN writes the smaller of A and B. -/
  | min (t : Fin 16)
  /-- MAX (R88): Slot opcode MAX writes the larger of A and B. -/
  | max (t : Fin 16)
  /-- ABS (R88): Slot opcode ABS writes the saturated magnitude of A. -/
  | abs (t : Fin 16)
  /-- NEG (R88): Slot opcode NEG writes the saturated negation of A. -/
  | neg (t : Fin 16)
  /-- CLAMP (R88): Slot opcode CLAMP bounds A between two words at SRCB and SRCB + 1. -/
  | clamp (t : Fin 16)
  /-- SEL (R88): Slot opcode SEL writes A if C = 1, else B. -/
  | sel (t : Fin 16)
  /-- CMPLT (R88): Slot opcode CMPLT sets C when A < B. -/
  | cmplt (t : Fin 16)
  /-- CMPLE (R88): Slot opcode CMPLE sets C when A ≤ B. -/
  | cmple (t : Fin 16)
  /-- SHL (R88): Slot opcode SHL writes A shifted left with saturation. -/
  | shl (t : Fin 16)
  /-- SHR (R88): Slot opcode SHR writes A shifted right with rounding. -/
  | shr (t : Fin 16)
  /-- LDI (R88): Slot opcode LDI writes a shifted 36-bit immediate. -/
  | ldi (t : Fin 16)
  /-- MACZ (R88): Slot opcode MACZ loads ACC with the exact product A × B. -/
  | macz (t : Fin 16)
  /-- MAC (R88): Slot opcode MAC adds A × B to ACC with saturation. -/
  | mac (t : Fin 16)
  /-- MSU (R88): Slot opcode MSU subtracts A × B from ACC with saturation. -/
  | msu (t : Fin 16)
  /-- ACCST (R88): Slot opcode ACCST stores the shifted, rounded and saturated ACC. -/
  | accst (t : Fin 16)
  /-- MULS32 (R88): Slot opcode MULS32 writes the per-unit product of A and B. -/
  | muls32 (t : Fin 16)
  /-- INTEG (R101): Slot opcode INTEG integrates from the committed state word with clamping, and sets C on a clamp. -/
  | integ (t : Fin 16)
  /-- SIN (R88): Slot opcode SIN writes the sine of angle A in S40.32. -/
  | sin (t : Fin 16)
  /-- COS (R88): Slot opcode COS writes the cosine of angle A in S40.32. -/
  | cos (t : Fin 16)
  /-- CHK (R88): Slot opcode CHK sets CHK_FAIL when |A − B| exceeds the tolerance word. -/
  | chk (t : Fin 16)
  /-- CHECK_TRIGGER (R96): Once every input has landed and the sketch has finished, the checker compares inputs and forms the verdict. -/
  | checkTrigger (e : Fin 8)
  /-- RELEASE (R107): A write of PLAUS_CTRL.RELEASE requests the end of plausibility hold. -/
  | release (e : Fin 8) (by_ : Agent)
  /-- OWNER_WRITE (R110): F0 writes an owner field, which moves the resource and chokes a moved leg. -/
  | ownerWrite (by_ : Agent) (addr : BitVec 24) (value : BitVec 32)
  /-- EASEL_RESET (R113): A request from EASEL_RST, ERST_CTRL, a watchdog or an FLR starts the easel reset sequence. -/
  | easelReset (e : Fin 8) (cause : ResetCause)
  /-- EASEL_RESET_COMPLETE (R113): Step 6 of an easel reset: registers take reset values, the ledger is treated and EASEL_RESET_DONE is posted. -/
  | easelResetComplete (e : Fin 8)
  /-- BTEST_ACCESS (R121): The test engine takes an idle handshake of a sub-bank for one save, march, restore or verify access. -/
  | btestAccess (e : Fin 8) (sub : Fin 16) (defect : BitVec 48)
  /-- BTEST_RESUME (R127): A write of BTEST_CTRL.RESUME restarts testing at the next region. -/
  | btestResume (e : Fin 8) (by_ : Agent)
  /-- DOORBELL_READ_COMPLETE (R139): The doorbell read completes, the heads are taken and descriptor reads are issued. -/
  | doorbellReadComplete (e : Fin 8) (hcb : Option (Vector (BitVec 64) 4))
  /-- DESCRIPTOR_ACCEPT (R139): A descriptor's 64th byte enters the ledger intact and CMD_HEAD advances. -/
  | descriptorAccept (e : Fin 8) (d : Vector (BitVec 64) 8)
  /-- DMA_READ_FAIL (R141): An intake read fails or returns poisoned data, and acceptance stops before it. -/
  | dmaReadFail (e : Fin 8)
  /-- HEAD_POLL (R141): Every 1,024 coarse ticks, the device reads the HCB heads. -/
  | headPoll (ring : RingId)
  /-- HEAD_POLL_COMPLETE (R141): A periodic head read completes and the heads are taken, or fails without effect. -/
  | headPollComplete (ring : RingId) (heads : Option (Vector (BitVec 64) 3))
  /-- COMPLETION_WRITE (R143): Completion entries are written, then ST_CPL, then MSI-X. -/
  | completionWrite (e : Fin 8)
  /-- STAGING_DRAIN (R144): A staged event or sample entry moves to its ring once the ring has room, preceded by any gap marker. -/
  | stagingDrain (ring : RingId) (kind : StageKind)
  /-- RING_EN (R147): A write of RING_CTRL.EN enables or disables an easel's rings and resets their indices. -/
  | ringEn (e : Fin 8) (by_ : Agent) (on : Bool)
  /-- F0_RING_EN (R147): A write of F0_RING_CTRL.EN enables or disables the F0 event ring. -/
  | f0RingEn (by_ : Agent) (on : Bool)
  /-- LINK_FAULT (R149): The link leaves DL_Active or Bus Master Enable clears: rings are disabled and LINK_HOLD is set. -/
  | linkFault (cause : LinkCause)
  /-- LINK_UP (R149): The link returns to DL_Active, and the host configures the functions: bus masters, MSI-X Enable, Function
  Mask, payloads of 256 bytes. -/
  | linkUp (speed : BitVec 2) (width : BitVec 2) (bme msixEn msixMask payload256 : BitVec 9)
  /-- FUNCTION_LEVEL_RESET (R151): An FLR resets a function and, for an easel function, starts an easel reset. -/
  | functionLevelReset (fn : Fin 9)
  /-- DESCRIPTOR_NOP (R154): Command NOP commits with no effect and writes a completion. -/
  | descriptorNop (e : Fin 8)
  /-- STATE_WR (R154): Command STATE_WR writes state words at commit. -/
  | stateWr (e : Fin 8)
  /-- BANK_WR (R154): Command BANK_WR writes bank words at commit. -/
  | bankWr (e : Fin 8)
  /-- STATE_RD (R159): Command STATE_RD returns committed state words in its completion. -/
  | stateRd (e : Fin 8)
  /-- BANK_RD (R160): Command BANK_RD issues bank reads and returns the words in its completion. -/
  | bankRd (e : Fin 8)
  /-- BANK_READ_COMPLETE (R160): The bank reads of a BANK_RD are served. -/
  | bankReadComplete (e : Fin 8) (stalled : Fin 6)
  /-- LEDGER_ABORT (R181): A write of LDG_CTRL.ABORT or LDG_ABORT.ABORT aborts every pending transaction. -/
  | ledgerAbort (e : Fin 8) (by_ : Agent)
  /-- LDG_SEL_WRITE (R170): A write of LDG_SEL captures the selected ledger entry for readout. -/
  | ldgSelWrite (by_ : Agent) (value : BitVec 32)
  /-- ADC_TRIGGER (R190): A sequence's trigger instant arrives and the sequence starts or becomes pending. -/
  | adcTrigger (p : Fin 8) (q : Fin 4)
  /-- SEQUENCE_START (R192): A pending sequence starts when its converter becomes free, with DEFER. -/
  | sequenceStart (p : Fin 8) (c : Fin 2)
  /-- ADC_STEP_LAND (R189): A step's result lands into the queue, sample staging and the metering engine. -/
  | adcStepLand (p : Fin 8) (c : Fin 2) (codes : List (BitVec 14))
  /-- CAL (R203): A write of ADC_PCTRL.CAL starts self-calibration of a pair. -/
  | cal (p : Fin 8) (by_ : Agent)
  /-- CAL_DONE (R203): Self-calibration completes and installs or rejects the new OFS and GAIN. -/
  | calDone (p : Fin 8) (found : Option (BitVec 32 × BitVec 32))
  /-- POD_SAMPLE_LAND (R195): A pod sample lands 40 ns after its uplink word is received. -/
  | podSampleLand (p : Fin 16)
  /-- ALIGN (R213): Downlink command ALIGN sets a channel's edge count to its next transmitted output. -/
  | align (p : Fin 16) (frame : BitVec 40)
  /-- ECHO (R209): Downlink command ECHO asks the pod for ECHO_RSP. -/
  | echo (p : Fin 16) (frame : BitVec 40)
  /-- DOWNLINK_WRITE (R209): Downlink command WRITE writes a pod register. -/
  | downlinkWrite (p : Fin 16) (frame : BitVec 40)
  /-- DOWNLINK_READ (R209): Downlink command READ reads a pod register. -/
  | downlinkRead (p : Fin 16) (frame : BitVec 40) (live : PodLive)
  /-- DOWNLINK_RESET (R210): Downlink command RESET reloads the pod's register reset values and makes it send HELLO; `still` are
  the alarm bits whose conditions persist. -/
  | downlinkReset (p : Fin 16) (frame : BitVec 40) (still : BitVec 8)
  /-- POD_OUTPUT (R212): A pod channel produces a transmitted output and a sample word waits. -/
  | podOutput (p : Fin 16) (c : Fin 4) (value : BitVec 24) (overload : Bool)
  /-- UPLINK_WORD_START (R215): At an uplink bit boundary, an idle pod starts its highest-priority waiting word. -/
  | uplinkWordStart (p : Fin 16) (live : PodLive)
  /-- STATUS_DUE (R216): A pod's STATUS word falls due 64 µs after the last one. -/
  | statusDue (p : Fin 16)
  /-- SAMPLE_WORD (R214): The controller receives a sample word, checks its CRC and forwards it for merging. The operand of this
  and the next six commands is the 64 chips of the body, the first in bit 0. -/
  | sampleWord (p : Fin 16) (chips : BitVec 64)
  /-- HELLO (R222): The controller receives HELLO, which moves the link to TRAIN. -/
  | hello (p : Fin 16) (chips : BitVec 64)
  /-- STATUS (R221): The controller receives STATUS and adjusts the carrier level. -/
  | status (p : Fin 16) (chips : BitVec 64)
  /-- READ_RSP (R230): The controller receives READ_RSP and completes a read. -/
  | readRsp (p : Fin 16) (chips : BitVec 64)
  /-- WRITE_ACK (R223): The controller receives WRITE_ACK for a pod register write. -/
  | writeAck (p : Fin 16) (chips : BitVec 64)
  /-- ALARM (R227): The controller receives an ALARM word and delivers POD_ALARM to the router. -/
  | alarm (p : Fin 16) (chips : BitVec 64)
  /-- ECHO_RSP (R223): The controller receives ECHO_RSP during training. -/
  | echoRsp (p : Fin 16) (chips : BitVec 64)
  /-- POD_PG_RISE (R218): The pod store rises through PG: reset values load and HELLO is sent. -/
  | podPgRise (p : Fin 16)
  /-- POD_PG_FALL (R218): The pod store falls below PG and the pod enters reset. -/
  | podPgFall (p : Fin 16)
  /-- MEASURE_LEVEL_CROSS (R218): The store crosses the measure level: converters start, or stop with STORE_LOW. -/
  | measureLevelCross (p : Fin 16) (above : Bool)
  /-- CARRIER_LOSS (R225): The pod's carrier detector finds no carrier for 200 ns and the pod goes dark. -/
  | carrierLoss (p : Fin 16)
  /-- DARK_TIMEOUT (R225): After DARK_T the dark pod acts on DARK_MODE. -/
  | darkTimeout (p : Fin 16) (live : PodLive)
  /-- PHASE_LOCK (R226): The pod locks to the returned carrier and sends STATUS or HELLO. -/
  | phaseLock (p : Fin 16)
  /-- ALT_RELEASE (R226): 64 µs after lock, the pod stops drawing from ALT. -/
  | altRelease (p : Fin 16)
  /-- POD_ALARM_RAISE (R227): The pod raises an alarm bit and queues an ALARM word. -/
  | podAlarmRaise (p : Fin 16) (bits : BitVec 8)
  /-- ACTIVE_BURST (R228): A dark pod with a pending alarm starts an active burst. -/
  | activeBurst (p : Fin 16) (live : PodLive)
  /-- BURST_RECEIVE (R228): The controller receives an active burst on a link whose carrier is off. -/
  | burstReceive (p : Fin 16) (burst : BitVec 48)
  /-- SL_EN (R222): A write of SL_CTRL.EN turns a link on into CHARGE or off into OFF. -/
  | slEn (p : Fin 16) (by_ : Agent) (on : Bool)
  /-- RETRAIN (R222): A write of SL_CTRL.RETRAIN moves the link to TRAIN. -/
  | retrain (p : Fin 16) (by_ : Agent)
  /-- CHARGE_TIMEOUT (R222): No HELLO within 10 ms of charge: a failure is counted and the carrier goes off for 1 ms. -/
  | chargeTimeout (p : Fin 16)
  /-- CHARGE_RETRY (R222): After 1 ms off, the carrier turns on again in CHARGE. -/
  | chargeRetry (p : Fin 16)
  /-- LINK_SILENCE (R222): No valid word for 160 µs in UP or REALIGN moves the link to TRAIN. -/
  | linkSilence (p : Fin 16)
  /-- POD_ANSWER_TIMEOUT (R223): A training step or pod access gets no answer within 200 µs. -/
  | podAnswerTimeout (p : Fin 16)
  /-- BUDGET_WINDOW_START (R220): A coupler budget window starts: USED resets, E_CAP reloads and GAP ends. -/
  | budgetWindowStart (p : Fin 16)
  /-- CARRIER_CAP_CUT (R220): USED would exceed E_CAP, so the carrier goes off for the rest of the window. -/
  | carrierCapCut (p : Fin 16)
  /-- SL_ACC_READ (R230): A write of SL_ACC.RD sends READ to the pod. -/
  | slAccRead (p : Fin 16) (by_ : Agent) (addr : BitVec 8)
  /-- SL_ACC_WRITE (R230): A write of SL_ACC.WR sends WRITE to the pod ALARM register. -/
  | slAccWrite (p : Fin 16) (by_ : Agent) (addr : BitVec 8) (data : BitVec 16)
  /-- UPDATE_POSITION (R238): At a leg update position, the pending value moves into the active register. -/
  | updatePosition (l : Fin 64)
  /-- DRIVE_EDGE (R237): The carrier phase crosses a bound of the high interval and X changes. -/
  | driveEdge (l : Fin 64)
  /-- DEAD_TIME_ELAPSED (R239): X has held for DTH or DTL, and the corresponding gate pin rises. -/
  | deadTimeElapsed (l : Fin 64)
  /-- LEG_RELEASE (R249): At the first START at least 40 ns after the last cause clears, a choked leg resumes switching. -/
  | legRelease (l : Fin 64)
  /-- COMPARATOR_CROSSING (R243): A comparator's raw output changes with its input, which now stands at `v`, in units of 2^-9 mV. -/
  | comparatorCrossing (c : Fin 64) (v : Int)
  /-- COMPARATOR_SAMPLE (R245): At each coarse tick, the raw outputs are sampled, blanked and filtered, and router sources update. -/
  | comparatorSample
  /-- BLANK_WINDOW_END (R245): A comparator's blanking window of BLANK_T coarse ticks ends. -/
  | blankWindowEnd (c : Fin 64)
  /-- DAC_SETTLED (R244): The threshold DAC settling time ends and the filtered outputs update again. -/
  | dacSettled (c : Fin 64)
  /-- FLT_ASSERT (R247): A FLT ball is asserted and chokes its leg and groups on the asynchronous path. -/
  | fltAssert (l : Fin 64)
  /-- FLT_DEASSERT (R246): A FLT ball is deasserted and its FLT cause clears at the next coarse tick. -/
  | fltDeassert (l : Fin 64)
  /-- CHOKE_GROUP_RELEASE (R248): A CYCLE group ends its activity at the first coarse tick at which all its sources read 0. -/
  | chokeGroupRelease (g : Fin 16)
  /-- CG_CLR (R248): A write of CG_CTRL.CLR ends a LATCH group's activity unless a source holds it. -/
  | cgClr (g : Fin 16) (by_ : Agent)
  /-- CG_FORCE (R248): A write of CG_CTRL.FORCE activates a choke group or releases its force. -/
  | cgForce (g : Fin 16) (by_ : Agent) (on : Bool)
  /-- CHOKE (R252): Route action CHOKE activates the named groups at the tick after the fire. -/
  | choke (r : Fin 128)
  /-- LATCH (R252): Route action LATCH sets a bit of an easel's RTR_LATCH. -/
  | latch (r : Fin 128)
  /-- POST (R252): Route action POST posts an event to an easel's ring. -/
  | post (r : Fin 128)
  /-- TRIGGER (R252): Route action TRIGGER fires an ADC sequence with SRC = ROUTER. -/
  | trigger (r : Fin 128)
  /-- ROUTE_FORCE_LIMP (R252): Route action FORCE_LIMP requests limp on an easel. -/
  | routeForceLimp (r : Fin 128)
  /-- WHEEL_EN (R263): A write of WHL_CTRL.EN starts the wheel in ACQUIRE or sets it IDLE. -/
  | wheelEn (by_ : Agent) (on : Bool)
  /-- WHEEL_CORRECTION (R261): At the first coarse tick after the owner's commit, the wheel applies or records the observer words. -/
  | wheelCorrection
  /-- COAST_EXPIRE (R263): An advance of two turns in COAST without a qualified limp pattern moves the wheel to FAIL. -/
  | coastExpire
  /-- LIMP_EDGE (R265): A second-phase zero crossing is validated, qualifies a pattern or corrects the wheel in LIMP. -/
  | limpEdge
  /-- LIMP_LOST (R267): An advance of one turn since the last valid edge loses limp and returns the wheel to COAST. -/
  | limpLost
  /-- WHEEL_BLEND_STEP (R268): At each 2^34 of advance, a blend step moves the angle and the last step ends the blend. -/
  | wheelBlendStep
  /-- PRIMARY_QUALIFIED (R269): Good residuals over an advance of eight turns start PRI_BLEND. -/
  | primaryQualified
  /-- ANGLE_ARM (R270): The wheel angle enters an event window and the crossing instant is predicted. -/
  | angleArm (k : Fin 40)
  /-- ANGLE_EVENT_FIRE (R270): An armed angle event reaches its instant and pulses its source or triggers its sequence. -/
  | angleEventFire (k : Fin 40)
  /-- EVALUATION_TICK (R279): Every 100 µs, the GFU samples measurements and evaluates ride-through, islanding, taps and MPPT. -/
  | evaluationTick
  /-- POINT_ASSERTED (R283): A ride-through point's timer reaches T and the point asserts. -/
  | pointAsserted (k : Fin 16)
  /-- MEAS_AGE_TRIP (R284): MEAS_AGE_NOW exceeds MEAS_AGE with MEAS_TRIP set, which sets TRIPPED. -/
  | measAgeTrip
  /-- TAP_START (R289): A tap starts on TAP_NOW or at the end of TAP_INT. -/
  | tapStart
  /-- TAP_PHASE_END (R290): A tap phase ends, and the end of POST forms an estimator point. -/
  | tapPhaseEnd
  /-- EST_STARVE (R291): STARVE_T without a valid point moves the estimator to STARVED. -/
  | estStarve
  /-- EST_STALE (R291): STALE_T in STARVED moves the estimator to FALLBACK. -/
  | estStale
  /-- MPPT_STEP (R292): An MPPT step of MSTEP_T ends and V_REF moves, holds or the step is skipped. -/
  | mpptStep (k : Fin 8)
  /-- GF_EN (R297): A write of GF_CTRL.EN enables the GFU or clears its timers and tap. -/
  | gfEn (by_ : Agent) (on : Bool)
  /-- TAP_NOW (R289): A write of GF_CTRL.TAP_NOW requests a tap. -/
  | tapNow (by_ : Agent)
  /-- TRIP_CLR (R284): A write of GF_CTRL.TRIP_CLR clears TRIPPED at the next tick unless a trip persists. -/
  | tripClr (by_ : Agent)
  /-- ISL_CLR (R288): A write of GF_CTRL.ISL_CLR clears ISLANDED and ISL_TEST. -/
  | islClr (by_ : Agent)
  /-- MP_EN (R294): A write of MP_CTRL.EN starts a string at VSTART or stops it. -/
  | mpEn (k : Fin 8) (by_ : Agent) (on : Bool)
  /-- FRAME_INSTANT (R300): At each frame instant, the metering engine places the next one, synchronous or free. -/
  | frameInstant
  /-- FRAME_CLOSE (R301): At a frame's close, inputs are interpolated, the gap and gain range are decided and powers form. -/
  | frameClose
  /-- MTR_EST_TIMEOUT (R305): A low-range gain estimator times out into STARVED or FALLBACK. -/
  | mtrEstTimeout (m : Fin 3)
  /-- MTR_EN (R300): A write of MTR_CTRL.EN starts or stops the metering engine. -/
  | mtrEn (by_ : Agent) (on : Bool)
  /-- MTR_CLR (R309): A write of MTR_CTRL.CLR clears every accumulator, residue and pulse credit. -/
  | mtrClr (by_ : Agent)
  /-- EPLS_PULSE_START (R312): With pulses owed and EPLS idle for PLS_W, EPLS goes active. -/
  | eplsPulseStart
  /-- EPLS_PULSE_END (R312): EPLS returns inactive after PLS_W. -/
  | eplsPulseEnd
  /-- BK_SAMPLE (R313): The backup front end samples BCIP and BCIN and counts unmetered charge. -/
  | bkSample (line neutral : Int) (vbatMv : Nat)
  /-- BK_CLR (R313): A write of BK_CTRL.CLR clears UQ_L, UQ_N and BK_TIME. -/
  | bkClr (by_ : Agent)
  /-- AUX_REQUEST_APPLY (R318): At the first coarse tick after a commit, fan, coil and discharge requests take effect. -/
  | auxRequestApply
  /-- TACH_EDGE (R321): A valid falling tach edge is counted for a fan, 1,000 samples after TACHn took the level `level`, low. -/
  | tachEdge (n : Fin 4) (level : Bool)
  /-- FCS_SAMPLE (R322): Every 10 µs, fan current is sampled and I_AVG is updated. -/
  | fcsSample (n : Fin 4) (code : BitVec 10)
  /-- SPIN_T_END (R323): SPIN_T ends, and the fan moves to RUN, TACHLESS or a stall. -/
  | spinTEnd (n : Fin 4)
  /-- TLOSS_T_END (R323): No valid tach edge for TLOSS_T in RUN gives TACHLESS or a stall. -/
  | tlossTEnd (n : Fin 4)
  /-- PAUSE_T_END (R323): PAUSE_T ends and the fan kicks again in SPIN. -/
  | pauseTEnd (n : Fin 4)
  /-- PULL_T_END (R325): A coil's pull-in time ends and it switches to hold duty. -/
  | pullTEnd (n : Fin 8)
  /-- HS_LEAD_END (R326): HS_LEAD after the high side turns on, CLS turns on. -/
  | hsLeadEnd (n : Fin 8)
  /-- COIL_TURN_OFF (R327): A due coil turn-off is performed once the clamp meter has room. -/
  | coilTurnOff (n : Fin 8)
  /-- COIL_FORCE_OFF (R329): The force-off source reads 1, so the coil's request is forced to 0. -/
  | coilForceOff (n : Fin 8)
  /-- DSCH_TRIGGER (R331): A rising edge of TSRC0 or TSRC1 sets TRIG, starts the discharge and raises HV_DISC. -/
  | dschTrigger (k : Fin 2)
  /-- DSCH_CUT (R333): D + W would exceed DSCH_CAP, so DSCH goes low and CUT is set. -/
  | dschCut
  /-- DSCH_CUT_CLEAR (R333): D falls to DSCH_CAP ÷ 2 and the cut clears. -/
  | dschCutClear
  /-- DSCH_FAIL (R334): DONE has not been set within DSCH_T of the start. -/
  | dschFail
  /-- DSCH_CLR (R331): A write of DSCH_CTRL.DSCH_CLR clears TRIG and HV_DISC. -/
  | dschClr (by_ : Agent)
  /-- SUPPLY_HOLD_ENTER (R342): A supply becomes low and the device enters supply hold. -/
  | supplyHoldEnter (supply : Fin 4)
  /-- SUPPLY_RESUME (R344): Every supply is restored for 20 µs, which is the qualification instant that ends hold. -/
  | supplyResume (supply : Fin 4)
  /-- DEVICE_RESET (R347): A POR, supply reset, nRST or device-watchdog reset starts device reset. -/
  | deviceReset (cause : DeviceResetCause)
  /-- RESET_RELEASE (R370): Reset is released and boot begins. -/
  | resetRelease
  /-- BOOT_DONE (R370): The self-test and store clearing complete, and BOOT_STATUS.DONE is set. -/
  | bootDone (fuseErr schedFail : Bool) (bistFail : BitVec 8)
  /-- BACKUP_POWER_ON (R345): The backup domain's supply rises through 1.80 V and every (B) value resets. -/
  | backupPowerOn
  /-- VBAT_TEST (R346): The once-per-second VBAT presence test runs. -/
  | vbatTest (beforeMv loadMv : Nat)
  /-- NRST_ASSERT (R348): nRST is asserted and NRST_HELD is set to 0. -/
  | nrstAssert
  /-- NRST_SECOND (R348): Each whole second of an nRST assertion counts, and after 10 s RESET_STUCK is set. -/
  | nrstSecond
  /-- CLKMON (R350): The clock cross-monitor trips and enters the safe state. -/
  | clkmon (condition : Fin 3)
  /-- WATCHDOG_ENABLE (R351): A watchdog's EN is set once and T starts from 0. -/
  | watchdogEnable (w : Fin 9) (by_ : Agent)
  /-- WATCHDOG_KEY (R352): A key write to DWD_KEY or WDE_KEY serves the watchdog or faults it. -/
  | watchdogKey (w : Fin 9) (by_ : Agent) (key : BitVec 32)
  /-- WATCHDOG_LATE (R352): T reaches CLOSE and the watchdog faults LATE. -/
  | watchdogLate (w : Fin 9)
  /-- DWD_RESET_DELAY (R354): 1 ms after a device-watchdog fault with RST = 1, device reset starts. -/
  | dwdResetDelay
  /-- KILL_ASSERT (R355): KILL is asserted, which latches KILL_PIN and forces every leg off. -/
  | killAssert
  /-- SAFE_CLR (R357): A safety-port write of SAFE_CLR clears the latched causes except CLKMON. -/
  | safeClr (by_ : Agent)
  /-- SP_NOP (R360): Safety-port frame NOP returns the response to the previous frame. -/
  | spNop (frame : BitVec 32)
  /-- SP_READ (R361): Safety-port frame READ reads a global register. -/
  | spRead (frame : BitVec 32)
  /-- SP_WRITE (R361): Safety-port frame WRITE opens a register write. -/
  | spWrite (frame : BitVec 32)
  /-- DATA_HI (R361): Safety-port frame DATA_HI carries the upper data half of a write. -/
  | dataHi (frame : BitVec 32)
  /-- DATA_LO (R361): Safety-port frame DATA_LO carries the lower data half and applies the write. -/
  | dataLo (frame : BitVec 32)
  /-- KILL (R360): Safety-port frame KILL latches KILL_CMD. -/
  | kill (frame : BitVec 32)
  /-- SP_LOCK (R362): A safety-port write of SP_LOCK.LOCK sets the safety lock. -/
  | spLock (by_ : Agent)
  /-- KEY_PROG (R363): A write of KEY_CTRL.PROG starts burning a digest into a key slot. -/
  | keyProg (by_ : Agent) (slot : Fin 4)
  /-- KEY_BURN_DONE (R363): The key-slot burn completes and PROV is set. -/
  | keyBurnDone
  /-- KEY_REVOKE (R363): A safety-port write of KEY_CTRL.REVOKE revokes a slot permanently. -/
  | keyRevoke (by_ : Agent) (slot : Fin 4)
  /-- DEBUG_OPEN (R364): A write of DBG.OPEN opens or closes debug, and opening latches the DEBUG cause. -/
  | debugOpen (by_ : Agent) (on : Bool)
  /-- DEBUG_BLOW (R364): A write of DBG.BLOW blows DBG_LOCK. -/
  | debugBlow (by_ : Agent)
  /-- PRELOAD_POINT (R374): Every 10.24 µs with PRELOAD set, eligible transactions commit and descriptors are fetched. -/
  | preloadPoint (e : Fin 8)
  /-- PRELOAD (R376): A write of BRING_CTRL.PRELOAD enables or disables preload points. -/
  | preload (e : Fin 8) (by_ : Agent) (on : Bool)
  /-- LOCK_SET (R387): A write of LOCK_SET sets lock bits at the end of the coarse tick. -/
  | lockSet (by_ : Agent) (groups : BitVec 10)
  /-- SETUP_REGISTER_WRITE (R383): A write to a set-up register without a row of its own is applied under access codes and locks. -/
  | setupRegisterWrite (by_ : Agent) (addr : BitVec 24) (be : BitVec 4) (value : BitVec 32)
  /-- QUALIFY_CYCLE (R59): Each TREF cycle in QUALIFY either adds 1 to QUAL_COUNT or, when it fails the ±2 % period test, restarts the count at 0. -/
  | qualifyCycle (periodPs : Nat)
  /-- SUPPLY_LEVEL_CROSS (R340): A supply crosses a monitor level: rising through its resume level starts its 20 µs resume interval, falling back into the band restarts it, and rising above its reset level during reset starts the 100 µs of R341. -/
  | supplyLevelCross (supply : Fin 4) (level : SupplyLevel)
  /-- SUPPLY_RESTORED (R340): One supply completes its 20 µs resume interval and is restored, which clears its bit in SUP_STATUS.LOW, while another supply is still low. -/
  | supplyRestored (supply : Fin 4)
  /-- KILL_DEASSERT (R358): The KILL ball is released, so KILL_IN and router source 0xE5 fall and a later SAFE_CLR can clear the latched KILL_PIN cause. -/
  | killDeassert
  /-- DBG_LOCK_BLOWN (R364): The DBG_LOCK fuse blow completes within 5 ms, after which DBG.LOCKED reads 1, the debug port returns only the device identity and OPEN has no effect. -/
  | dbgLockBlown
  /-- FPWM_PERIOD_START (R320): An FPWM period of a fan starts at a TIME48 multiple of 125 × FPER, and the drive changed since the last period start takes effect. -/
  | fpwmPeriodStart (n : Fin 4)
deriving DecidableEq, Repr

end Sys2Proof
end

