-- ==== Sys2Proof/Machine/Types.lean ====
section
/-! DEFINITION. The parts of the state: one structure per unit of the block. A field's default is its value after device
reset. What a set-up register shows is not repeated here: it lives in the register file of `State`. Instants held as natural numbers are on the scale of the
field `age` of `State`. -/

namespace Sys2Proof.Machine

/-! ## Entries that travel to host memory (Descriptor Catalogue, Rings and Doorbells) -/

/-- One 64-byte ring entry, W0 to W7. -/
abbrev Entry := Vector (BitVec 64) 8

/-- An event held in staging (R163, R164). -/
structure EventE where
  code : Nat
  easel : Option (Fin 8)
  count : Nat
  tFirst : Stamp
  tLast : Stamp
  dbFirst : BitVec 48
  arg0 : BitVec 64
  arg1 : BitVec 64
  arg2 : BitVec 64
  arg3 : BitVec 64
  arg4 : BitVec 64
deriving DecidableEq, Repr

/-- One sample record of a sample entry (R167). -/
structure SampleRec where
  tag : BitVec 16
  flags : BitVec 8
  ts : Stamp
  val : Word
deriving DecidableEq, Repr

/-- A closed sample entry in staging: the downbeat of its period and one to three records. -/
structure SampleE where
  db : BitVec 48
  recs : List SampleRec
deriving DecidableEq, Repr

/-- The sample entry that is still open (R167). `dropping`: its first sample found staging full, and its samples are dropped. -/
structure OpenSample where
  db : BitVec 48
  recs : List SampleRec
  dropping : Bool
deriving DecidableEq, Repr

/-- A staging buffer with the books of its ring (R142, R144, R147): entries in order, drops not yet reported by a gap marker
with the time of the first, the head last taken, the GAPS count, and whether the interrupt of this downbeat was sent (R146)
or is owed. -/
structure Staging (α : Type) where
  entries : List α := []
  drops : Nat := 0
  tDrop : Stamp := 0
  head : BitVec 16 := 0
  gaps : BitVec 16 := 0
  irqSent : Bool := false
  irqOwed : Bool := false
deriving DecidableEq, Repr

/-- What the device sends to the host: a posted write, a read request (its address and bytes), or an MSI-X message of a
function's vector with the address and data of its table entry. -/
inductive HostMsg where
  | write (addr : BitVec 64) (words : List (BitVec 64))
  | read (addr : BitVec 64) (bytes : Nat)
  | msix (fn : Nat) (vec : Nat) (addr : BitVec 64) (data : BitVec 32)
deriving DecidableEq, Repr

/-- An entry of an MSI-X table (R129, R130, R146). -/
structure MsixEntry where
  addr : BitVec 64 := 0
  data : BitVec 32 := 0
  masked : Bool := true
deriving DecidableEq, Repr, Inhabited

/-- What a PCI Express function holds beside Bus Master Enable (R129 to R132, R146): MSI-X Enable and Function Mask, the table and
the pending bits of BAR2, Maximum Payload Size (256 bytes or 128), and the uncorrectable errors of Advanced Error Reporting. -/
structure PcieFn where
  msixEn : Bool := false
  msixMask : Bool := false
  table : Vector MsixEntry 16 := Vector.replicate 16 {}
  pba : BitVec 16 := 0
  payload256 : Bool := false
  aer : BitVec 32 := 0
deriving DecidableEq, Repr, Inhabited

/-! ## Timebase (Time Without a Clock) -/

/-- The part of the timebase that no register shows. Frequency words are counted from BOSC's factory trim (R61). -/
structure Timebase where
  /-- The live frequency word. -/
  word : Int := 0
  /-- The trim word of BOSC (R43). -/
  bosc : Int := 0
  /-- Start and target of a blend, and the steps of it done (R58). -/
  blendFrom : Int := 0
  blendTo : Int := 0
  blendStep : Nat := 0
  /-- The instant at which the blend started (R58). -/
  blendAt : Nat := 0
  /-- The last trim of BOSC since ON_TREF was entered (R43). -/
  trimAt : Option Nat := none
  /-- The start of the tempo window in progress (R38). -/
  windowFrom : Nat := 0
  /-- The start of the calibration interval in progress (R44). -/
  calFrom : Nat := 0
  /-- Delay line in use, and the tap count of each line's table (R44). -/
  line : Bool := false
  tapsA : BitVec 9 := 0
  tapsB : BitVec 9 := 0
  /-- The last published tempo values, newest first, at most 64 (R75). -/
  tempos : List (BitVec 16) := []
deriving DecidableEq, Repr

/-! ## Fuses (R363, R364, R370) -/

/-- The one-time-programmable cells: key-slot digests (byte 0 in the highest place), PROV and REVOKED bits, DBG_LOCK, and the
slot and digest of a burn in progress. A part leaves the factory with no slot provisioned (log entry 4). -/
structure Fuses where
  digests : Vector (BitVec 256) 4 := Vector.replicate 4 0
  prov : BitVec 4 := 0
  revoked : BitVec 4 := 0
  dbgLock : Bool := false
  burn : Option (Fin 4 × BitVec 256) := none
deriving DecidableEq, Repr

/-! ## Schedule images, tiles and passes (The Kelkor Schedule Contract, The Control Engine and Speculation) -/

/-- Where an image load stands (R71): idle, the DMA read runs, or the verifier and admission run. -/
inductive LoadStage where
  | idle
  | dma
  | verify
deriving DecidableEq, Repr

/-- The schedule store and the state of load and swap that no register shows. -/
structure ImageUnit where
  /-- The two halves of the schedule store, as 64-bit words from offset 0 (R64). -/
  half0 : List (BitVec 64) := []
  half1 : List (BitVec 64) := []
  stage : LoadStage := .idle
  /-- The source address taken by the load in progress. -/
  src : BitVec 64 := 0
  len : Nat := 0
  /-- The shadow half is armed (R410). -/
  armed : Bool := false
  /-- SWAP_TIME has been reached (R72). -/
  reached : Bool := false
  /-- The easels that have changed to the new image (R72). -/
  changed : BitVec 8 := 0
deriving DecidableEq, Repr

/-- A word with its taint bit (R102). -/
structure TWord where
  val : Word
  taint : Bool
deriving DecidableEq, Repr

/-- A run that a tile executes: its easel, the store half and body word index of its header, the slot words executed, whether
it completes without effect (R31, R79, R105), and whether it is an INTAKE run of a pass that is no intake pass: its slot words
then have no effect, but count (R70). -/
structure Run where
  easel : Fin 8
  half : Bool
  header : Nat
  done : Nat
  dead : Bool
  mute : Bool := false
deriving DecidableEq, Repr

/-- A tile: accumulator, condition flag, their taint bits (R85) and the run in progress. -/
structure Tile where
  acc : BitVec 88 := 0
  c : Bool := false
  accTaint : Bool := false
  cTaint : Bool := false
  run : Option Run := none
deriving DecidableEq, Repr

/-- The plausibility fault classes (R104). -/
inductive FaultClass where
  | v
  | p
  | f
deriving DecidableEq, Repr

/-- A pass of an easel between its opening and its closing downbeat. -/
structure Pass where
  /-- The image half and the entry (normal or limp) that serve the pass (R69, R72). -/
  half : Bool
  limp : Bool
  openDb : BitVec 48
  openTime : Time
  /-- Body word indices of the runs started and of the runs finished. -/
  started : List Nat := []
  finished : List Nat := []
  /-- The inputs that have landed (R95). -/
  landed : BitVec 64 := 0
  /-- Slot words executed by the critical tile before, during and after the check (R78). -/
  huPre : Nat := 0
  huCheck : Nat := 0
  huRepaint : Nat := 0
  /-- The CHECK trigger has fired; an input miss was found; the verdict (true: pass); REPAINT runs may start. -/
  checked : Bool := false
  miss : Bool := false
  verdict : Option Bool := none
  repaint : Bool := false
  /-- The instant at which the pass became final (R27). -/
  final : Option Time := none
  slipped : Bool := false
  fault : Option (FaultClass × Nat) := none
  sat : Bool := false
  chkFail : Bool := false
deriving DecidableEq, Repr

/-- What the commit unit copies at HRD entry (R82): downbeats still held, and leg, target and step of each ramp entry. -/
structure Hrd where
  hold : Nat
  ramp : List (Fin 64 × Word × Word)
deriving DecidableEq, Repr

/-! ## Ledger (Ledger, Commit and Replay) -/

/-- The states of a ledger entry that is not FREE (R170). -/
inductive LState where
  | pending
  | committed
  | aborted
deriving DecidableEq, Repr

/-- The bank read of a BANK_RD (R160): not issued, issued, or served at an instant with each word and its vacancy. -/
inductive BankRead where
  | none
  | issued
  | served (t : Nat) (words : List (Word × Bool))
deriving DecidableEq, Repr

/-- The SECDED condition of a ledger word (R170): clean, or a single- or a double-bit error. -/
inductive WordError where
  | clean
  | single
  | double
deriving DecidableEq, Repr

/-- No word of an entry has an error. -/
abbrev allClean : Vector WordError 10 := Vector.replicate 10 .clean

/-- A ledger entry: the descriptor, LM0 and LM1 (R170), the instant of acceptance for condition 1 of R158, the bank read,
the words a STATE_RD read at its commit (R159), and the commit timestamp for the completion (R161). -/
structure LEntry where
  desc : Entry
  st : LState
  replay : Bool
  resv : Bool
  late : Bool
  cmdIdx : BitVec 16
  accTime : Time
  accAge : Nat
  db : BitVec 48
  read : BankRead
  data : List (Word × Bool)
  commitTs : Stamp
  err : Vector WordError 10
deriving DecidableEq, Repr

/-- The intake of an easel (R139, R141): idle, the doorbell read outstanding (of a preload point, or of an intake pass), the
descriptor reads not yet issued, or issued and outstanding: for each read the address of its next slot and the slots to come. -/
inductive IntakePhase where
  | idle
  | doorbell (preload : Bool)
  | fetch (reads : List (BitVec 64 × Nat))
  | descs (reads : List (BitVec 64 × Nat))
deriving DecidableEq, Repr

/-- An entry of a tagged queue (R196 to R201): value, TAG, FLAGS, timestamp, landing fine tick, and the number of the
downbeat that opened the period in which it landed, if any. -/
structure QEntry where
  val : Word
  tag : BitVec 16
  flags : BitVec 8
  ts : Stamp
  land : Time
  db : Option (BitVec 48)
deriving DecidableEq, Repr

/-! ## The transparent test (R124 to R128) -/

/-- The test engine of a bank: the accesses done per sub-bank (0 to 52) of the region in progress, the save buffer, the words
of parked regions, the region in progress, parked or to start next, and the START of an EN set while one was in progress or
parked. -/
structure BTest where
  steps : Vector Nat 16 := Vector.replicate 16 0
  buf : Cells Phys := []
  parked : Cells Phys := []
  next : Nat := 0
  restart : Option Nat := none
deriving DecidableEq, Repr

/-! ## One easel -/

/-- The part of an easel that no register shows. -/
structure Easel where
  /-- DB_COUNT, and whether a downbeat has fired since the last reset (R52). -/
  dbCount : BitVec 48 := 0
  dbFired : Bool := false
  /-- The instant of the latest downbeat since RUN was last set, if there is one (R198). -/
  lastDb : Option Nat := none
  /-- The next scheduled downbeat; a downbeat that still fires after RUN was cleared (R51, R54). -/
  gen : Option Time := none
  genLast : Option Time := none
  pass : Option Pass := none
  /-- Bank, state file, SCRATCH, PRED and LAND by operand address, as physical words (R91, R117). -/
  mem : Cells Phys := []
  /-- The pass-local words that hold a tainted value (R102), by operand address. -/
  taints : Cells Bool := []
  /-- The committable words whose written bit is set (R93, R94). -/
  shadow : List (Nat × TWord) := []
  /-- The committed OUTS words (R99), by operand address. -/
  outs : Cells Word := []
  /-- The SYSIN words held for the pass, by operand address. -/
  sysin : Cells TWord := []
  /-- Consecutive fault-free final passes in plausibility hold, and the instant RELEASE was written (R107). -/
  goodFinals : Nat := 0
  releaseAt : Option Nat := none
  /-- Instants of the pending forced limp and forced HRD (R81). -/
  limpAt : Option Nat := none
  hrdAt : Option Nat := none
  hrd : Option Hrd := none
  queue : List QEntry := []
  /-- The ledger from RET to TAIL, oldest first, and the index RET (R169). -/
  ledger : List LEntry := []
  ret : BitVec 13 := 0
  /-- The instants of ABORT writes that have not acted (R181). -/
  aborts : List Nat := []
  lastTag : BitVec 16 := 0
  evt : Staging EventE := {}
  smp : Staging SampleE := {}
  sample : Option OpenSample := none
  intake : IntakePhase := .idle
  accepted : Nat := 0
  /-- The data of the outstanding intake read, or head read, is to be discarded (R148, R150). -/
  intakeStale : Bool := false
  /-- A descriptor read of the intake has failed: nothing more of it is accepted; the instant at which its reads issue. -/
  intakeBad : Bool := false
  issueAt : Nat := 0
  poll : Bool := false
  pollStale : Bool := false
  /-- The instant of the last periodic read of the heads, or of the enable from which they count (R141). -/
  pollFrom : Nat := 0
  /-- A write of ST_CPL that an outage put off (R143, R148). -/
  stOwed : Bool := false
  cplHead : BitVec 16 := 0
  cplDb : BitVec 32 := 0
  cplSent : Bool := false
  cplOwed : Bool := false
  /-- The instant of the RING_CTRL.EN write that lets LINK_HOLD clear (R149). -/
  linkClearAt : Option Nat := none
  /-- The easel reset in progress, by its cause; step 4 to step 6 is an outage (R113, R147). -/
  reset : Option ResetCause := none
  /-- Unpredictable after a host error (R2); the reset in progress ends it (R5). -/
  unpred : Bool := false
  unpredEnds : Bool := false
  /-- The qualification instant that ended the supply hold; the resume downbeat is still to come (R344). -/
  resumeAt : Option Nat := none
  btest : BTest := {}
deriving DecidableEq, Repr, Inhabited

/-! ## Legs, comparators, choke groups and router (Legs, Comparators, Event Router and Choke) -/

/-- A leg: pending and active registers (R234), the gate pins, the instant since which X has held its value or the leg has
been released (R239, R249), the instant since which both pins count as low (release or change of OUT), and the instant at
which its last choke cause cleared. -/
structure Leg where
  pending : Word := 0
  active : Word := 0
  gh : Bool := false
  gl : Bool := false
  xSince : Nat := 0
  lowSince : Nat := 0
  clearedAt : Option Nat := none
  /-- The update position taken last. -/
  lastUpd : Option Nat := none
  /-- The instant of the commit that wrote the pending register last (R28), and the value pending before it. -/
  commitAt : Option Nat := none
  before : Word := 0
deriving DecidableEq, Repr, Inhabited

/-- A comparator: the last nine samples of each raw output, newest first (R245), the end of the blanking window, and the end
of DAC settling (R244). -/
structure Cmp where
  above : List Bool := []
  below : List Bool := []
  blank : Option Nat := none
  settle : Option Nat := none
deriving DecidableEq, Repr, Inhabited

/-- What activates a choke group (R248): raw ABOVE or BELOW of a comparator on the asynchronous path, a FLT ball, a route. -/
inductive ChokeSource where
  | above (c : Fin 64)
  | below (c : Fin 64)
  | flt (l : Fin 64)
  | route (r : Fin 128)
deriving DecidableEq, Repr

/-- The event router: pulses since the last coarse tick, what each source read at the last tick sampled, that tick, the
routes enabled or rewritten since, and the routes that have fired and not yet acted, with the tick of the fire (R252, R253). -/
structure Router where
  pulses : BitVec 256 := 0
  prev : BitVec 256 := 0
  at_ : Option Nat := none
  rewritten : BitVec 128 := 0
  fired : List (Fin 128 × Time) := []
deriving DecidableEq, Repr

/-! ## Conversion (Conversion and Tagged Queues) -/

/-- A sequence that waits for its converter (R192): its trigger instant, and whether its angle trigger was placed late
(R272) or came from a coasting wheel. -/
structure AdcPend where
  seq : Fin 4
  trig : Nat
  late : Bool
  coast : Bool
deriving DecidableEq, Repr

/-- A step whose conversions are placed and whose result has not landed: sequence, step, the STEP register taken at the
start, the first and the last sample instant, INTERLEAVE, an input that the pair's owner does not own, DEFER, COAST, and
conversions with VANA below its warning level. -/
structure AdcLand where
  seq : Fin 4
  step : Nat
  cfg : Reg
  first : Nat
  last : Nat
  inter : Bool
  ground : Bool
  defer : Bool
  coast : Bool
  low : Bool
deriving DecidableEq, Repr

/-- A converter; in INTERLEAVE, entry A stands for both: the sequence started last, with its trigger, and the instant at which
the converter is free, the pending sequences in the order of R192, and the steps still to land. -/
structure AdcConv where
  run : Option (AdcPend × Nat) := none
  pend : List AdcPend := []
  lands : List AdcLand := []
deriving DecidableEq, Repr, Inhabited

/-- A pair: its converters, the downbeat or carrier position that last fired each sequence, and the ROUTER triggers that
wait for their OFFSET. -/
structure AdcPair where
  conv : Vector AdcConv 2 := Vector.replicate 2 {}
  fired : Vector (Option Nat) 4 := Vector.replicate 4 none
  routed : List (Fin 4 × Nat) := []
deriving DecidableEq, Repr, Inhabited

/-! ## Sprinrek links and pods (Daderal Pods and Sprinrek Links) -/

/-- Where a training stands (R210, R223): the HELLO that answers RESET, the ECHOs left, the number of the write, CFG_CRC,
ALARM, the measurement of L. -/
inductive Train where
  | off
  | reset
  | echo (left : Nat)
  | config (k : Nat)
  | crc
  | alarm
  | measure
deriving DecidableEq, Repr

/-- A pod sample received in UP, on its way to the merger (R195): channel, value, PODQ, instant of reception. -/
structure PodLand where
  ch : Fin 4
  value : BitVec 24
  podq : BitVec 2
  at_ : Nat
deriving DecidableEq, Repr

/-- A link, at the controller: consecutive failures, since when the carrier is on or off, the state before GAP, the training
with its cause, the instant of its step and the shadows it uses (CTRL, DARK_T, ALARM_EN, the CH registers; PHASE), words and
smallest L per channel, the channels that sent a settled word in REALIGN, the last valid word, the SEQ sent last, the access of
SL_ACC in progress, whether the carrier was off since the last STATUS or HELLO, whether the cap cut it in this window, and the
frames sent, oldest first, each with its end. -/
structure Link where
  fails : Nat := 0
  carrierAt : Nat := 0
  prev : Nat := 0
  train : Train := .off
  cause : Nat := 0
  stepAt : Nat := 0
  cfg : Vector (BitVec 16) 19 := Vector.replicate 19 0
  phase : Vector (BitVec 24) 4 := Vector.replicate 4 0
  words : Vector Nat 4 := Vector.replicate 4 0
  least : Vector Nat 4 := Vector.replicate 4 0
  settled : BitVec 4 := 0
  lastWord : Nat := 0
  seq : BitVec 4 := 0
  acc : Option (BitVec 4 × Nat) := none
  gone : Bool := true
  cut : Bool := false
  landing : List PodLand := []
  frames : List (BitVec 40 × Nat) := []
  frameEnd : Nat := 0
deriving DecidableEq, Repr, Inhabited

/-- A control word that waits in a pod (R215, group 3). -/
inductive PodWord where
  | hello
  | status
  | readRsp (seq : BitVec 4) (data : BitVec 16)
  | writeAck (seq : BitVec 4)
  | echoRsp (seq : BitVec 4)
deriving DecidableEq, Repr

/-- A sample word that waits (R215): value, output instant, overload, not ready. -/
structure PodSample where
  value : BitVec 24
  at_ : Nat
  overload : Bool
  notReady : Bool
deriving DecidableEq, Repr

/-- A pod channel: the instant since which its outputs are aligned, the instant of the next transmitted output, the waiting
sample word. -/
structure PodCh where
  aligned : Option Nat := none
  next : Option Nat := none
  waiting : Option PodSample := none
deriving DecidableEq, Repr, Inhabited

/-- A pod. It lies outside the device and keeps its state through device reset. Registers by address (R229), PG, the measure
level and since when it holds, darkness (since when), the action at DARK_T, lock and its instant, ALT, the channels, ALARM
words and control words that wait, the word sent last (sample word or not, body, end), the last STATUS, when the next is due,
and the last burst. -/
structure Pod where
  regs : Cells (BitVec 16) := []
  pg : Bool := false
  meas : Bool := false
  measAt : Nat := 0
  dark : Option Nat := some 0
  acted : Bool := false
  loadCut : Bool := false
  locked : Bool := false
  lockAt : Nat := 0
  onAlt : Bool := false
  ch : Vector PodCh 4 := Vector.replicate 4 {}
  alarmWords : Nat := 0
  waiting : List PodWord := []
  word : Option (Bool × BitVec 32 × Nat) := none
  statusAt : Nat := 0
  statusDue : Option Nat := none
  burstAt : Option Nat := none
  burst : Option (BitVec 48) := none
deriving DecidableEq, Repr, Inhabited

/-! ## The phase wheel (The Phase Wheel) -/

/-- A fraction, for SCALE, which moves by exact steps (R275). -/
structure Frac where
  num : Nat
  den : Nat
deriving DecidableEq, Repr

/-- An event slot, or an ADC sequence with SRC = ANGLE: the instant and lateness of the armed event, and the advance at the
last arming (R270 to R272). -/
structure AngleSlot where
  armed : Option (Time × Bool) := none
  armAdv : Option Nat := none
deriving DecidableEq, Repr, Inhabited

/-- The wheel. `adv` is the advance since device reset (R260); every duration in turns is a difference of two advances. -/
structure Wheel where
  acc : BitVec 40 := 0
  adv : Nat := 0
  /-- Advance at entry into the present state. -/
  entryAdv : Nat := 0
  good : Nat := 0
  bad : Nat := 0
  /-- The observer words of the last commit, not yet acted on (R261): PHASE_CORR, FREQ_SET, RESID. -/
  newCorr : Option Word := none
  newFreq : Option Word := none
  newResid : Option Word := none
  /-- The observer words recorded for a switch. -/
  recCorr : Int := 0
  recFreq : Nat := 0
  recResid : Nat := 0
  /-- Advance at which the residual count of R269 started. -/
  qualAdv : Nat := 0
  /-- Blend: offset, start, steps done (R268). -/
  delta : Int := 0
  blendAdv : Nat := 0
  blendK : Nat := 0
  /-- Whether a good residual sample has come since then. -/
  qualGood : Bool := false
  /-- The last instant at which the angle, FREQ, the state or an angle event changed otherwise than by advance. -/
  moved : Nat := 0
  /-- Changes of filtered ABOVE of the limp comparator that no LIMP_EDGE has taken, oldest first: level and tick (R265). -/
  seen : List (Bool × Time) := []
  /-- Limp edges, newest first, at most four: polarity and instant. -/
  edges : List (Bool × Time) := []
  /-- Consecutive edges that were not valid, and the advance at the last valid one (R267). -/
  badEdges : Nat := 0
  validAdv : Nat := 0
  /-- Slots 0 to 7, then the ADC sequences 8 + 4 × pair + sequence. -/
  slots : Vector AngleSlot 40 := Vector.replicate 40 {}
  /-- SCALE of each easel, as a fraction of 1.0. -/
  scale : Vector Frac 8 := Vector.replicate 8 ⟨0, 1⟩
deriving DecidableEq, Repr

/-! ## Grid-function unit and MPPT (Grid and Source Functions) -/

/-- A tap in progress (R289): its phase (0 PRE, 1 PLUS, 2 MINUS, 3 POST), the ticks of the phase done, when its averaged
ticks begin and how long they last, and the sums of TAP_V and TAP_I of each phase. -/
structure Tap where
  phase : Nat := 0
  tick : Nat := 0
  avgFrom : Nat := 0
  avgLen : Nat := 0
  sumV : Vector Int 4 := Vector.replicate 4 0
  sumI : Vector Int 4 := Vector.replicate 4 0
deriving DecidableEq, Repr

/-- The phase whose TAP_REF is in force: a phase acts from the tick after the last tick of the phase before (R289). -/
def Tap.inForce (x : Tap) : Nat := if x.tick = 0 then x.phase - 1 else x.phase

/-- A string of the MPPT engine (R292 to R294): the step in progress, the last valid step, V_REF, and PCAP if it was made
real since EN. -/
structure MpptString where
  tick : Nat := 0
  sumV : Nat := 0
  sumI : Nat := 0
  /-- Was the group refreshed at some tick of the step? Had the owner RUN = 0 at some tick (R292)? -/
  fresh : Bool := false
  stopped : Bool := false
  prev : Option (Int × Int × Int) := none
  vref : Word := 0
  pcap : Option Nat := none
deriving DecidableEq, Repr

/-- The grid-function unit. -/
structure Grid where
  /-- The measured words last made real by the owners, and the groups refreshed since the previous tick (R280). -/
  v : Vector Nat 3 := Vector.replicate 3 0
  tapV : Int := 0
  tapI : Int := 0
  mv : Vector Nat 8 := Vector.replicate 8 0
  mi : Vector Nat 8 := Vector.replicate 8 0
  freshV : Bool := false
  freshTap : Bool := false
  freshS : BitVec 8 := 0
  /-- Timers of the points: 0 to 7 voltage, 8 to 15 frequency (R283). -/
  timers : Vector Nat 16 := Vector.replicate 16 0
  /-- ROCOF: ticks since the last multiple, the reference, the count (R286). -/
  rocofTick : Nat := 0
  rocofRef : Option Nat := none
  rocofCnt : Nat := 0
  /-- WINDOW: consecutive ticks outside. -/
  winCnt : Nat := 0
  /-- Writes that act at the next tick. -/
  tripClr : Bool := false
  islClr : Bool := false
  tapNow : Bool := false
  tap : Option Tap := none
  /-- TAP_REF in force, and the start of the last tap, or EN. -/
  tapRef : Int := 0
  tapStart : Nat := 0
  /-- Z_EST, E_EST and the entry into the present estimator state (R291). -/
  z : Word := 0
  e : Word := 0
  estAt : Nat := 0
  /-- The evaluation tick done last. -/
  evalAt : Option Nat := none
  strings : Vector MpptString 8 := Vector.replicate 8 {}
deriving DecidableEq, Repr

/-! ## The metering engine (The Metering Engine) -/

/-- A calibrated sample of an input: value, instant, INVALID and CLIP (R299). -/
structure MtrSample where
  y : Int
  t : Int
  invalid : Bool
  clip : Bool
deriving DecidableEq, Repr

/-- A frame between its instant and its close: instant, length, placement, target, wheel angle at the instant, whether a
change of placement lies before it, whether its block ends with it, and the tap, by its number, and the phase whose span holds
it. -/
structure MtrFrame where
  at_ : Nat
  delta : Nat
  sync : Bool
  target : Nat
  angle : Nat
  fresh : Bool
  last : Bool
  span : Option (Nat × Fin 4)
deriving DecidableEq, Repr

/-- The sums of a block in progress (R306): frames and valid frames, whether it can still be complete and the target that
must follow, T and T_v, active and reactive energy, squares of voltages, currents, neutral and residual, and the
correlations with sine and cosine. -/
structure MtrBlock where
  frames : Nat := 0
  valid : Nat := 0
  whole : Bool := false
  target : Nat := 0
  dur : Nat := 0
  durV : Nat := 0
  p : Int := 0
  q : Int := 0
  sqV : Vector Nat 3 := Vector.replicate 3 0
  sqI : Vector Nat 3 := Vector.replicate 3 0
  sqN : Nat := 0
  sqR : Nat := 0
  av : Vector Int 3 := Vector.replicate 3 0
  bv : Vector Int 3 := Vector.replicate 3 0
  ai : Vector Int 3 := Vector.replicate 3 0
  bi : Vector Int 3 := Vector.replicate 3 0
deriving DecidableEq, Repr

/-- The frames of one tap span: their number and the sums for the high and the low range (R304). -/
structure MtrSpan where
  count : Nat := 0
  high : Vector Int 3 := Vector.replicate 3 0
  low : Vector Int 3 := Vector.replicate 3 0
deriving DecidableEq, Repr

/-- A tap that the engine follows (R304): its number, its spans, whether a frame of it was a gap or free, the phases whose low
input missed or clipped, whether POST has ended. -/
structure MtrTap where
  no : Nat
  spans : Vector MtrSpan 4 := Vector.replicate 4 {}
  bad : Bool := false
  lowBad : Vector Bool 3 := Vector.replicate 3 false
  ended : Bool := false
deriving DecidableEq, Repr

/-- The metering engine. `residue`, `bkPhase` and `bkCounted` lie in the backup domain. -/
structure Metering where
  hist : Vector (List MtrSample) 10 := Vector.replicate 10 []
  /-- The next frame instant, its placement and target; whether it is the first since EN; the previous instant; frames of
  the free block so far. -/
  next : Option (Nat × Bool × Nat) := none
  first : Bool := false
  fresh : Bool := false
  prevAt : Nat := 0
  freeN : Nat := 0
  /-- Frames that wait for their close, oldest first. -/
  waiting : List MtrFrame := []
  /-- The voltages of the last frames, newest first; none for a gap frame. -/
  past : List (Option (Int × Int × Int)) := []
  block : MtrBlock := {}
  /-- Consecutive valid frames with a small high-range value and a low input that does not miss (R303). -/
  hold : Vector Nat 3 := Vector.replicate 3 0
  /-- The taps that are followed, oldest first, and how many there have been (R304). -/
  taps : List MtrTap := []
  tapNo : Nat := 0
  /-- The entry of each gain estimator into its state, or its last valid point (R305). -/
  estAt : Vector Nat 3 := Vector.replicate 3 0
  /-- The SYSIN words of the last block (R311), the block count, the end of the last block, and what it credited. -/
  words : Vector Word 16 := Vector.replicate 16 0
  blocks : BitVec 40 := 0
  blockEnd : Time := 0
  /-- The start of the coarse tick of the last credit, on the scale of ages (R309). -/
  creditAt : Option Nat := none
  credits : List (Fin 16 × Nat) := []
  residue : Vector Nat 16 := Vector.replicate 16 0
  /-- EPLS is active; since when it has been as it is, if it ever was active. -/
  epls : Bool := false
  eplsAt : Option Nat := none
  /-- Pod channels whose copies go on after an easel reset of the meter easel, with their group delay (R314). -/
  kept : List (Fin 64 × Nat) := []
  /-- BK_REPORT has been posted since device reset (R313). -/
  reported : Bool := false
  bkPhase : Nat := 0
  bkCounted : Bool := false
deriving DecidableEq, Repr

/-! ## Auxiliary drives (Auxiliary Drives and Wiring Energy Limits) -/

/-- A fan: the committed request, the drive in force and its high time, the entry into its state, the valid edges that still
count (newest first), the tach period in coarse ticks, the instant from which TLOSS_T counts, the current samples. Drives are
S40.32 in 0 to 1.0. -/
structure Fan where
  req : Nat := 0
  force : Nat := 0
  high : Nat := 0
  entry : Nat := 0
  edges : List Nat := []
  lastEdge : Option Nat := none
  period : Nat := 0
  lossFrom : Nat := 0
  samples : List (BitVec 10) := []
  /-- The last sample of FCSn. -/
  sampledAt : Option Nat := none
  /-- The level of TACHn, the first coarse tick that samples it, and the level that counts (R321). -/
  pin : Bool := true
  pinAt : Nat := 0
  level : Bool := true
deriving DecidableEq, Repr, Inhabited

/-- A coil: the committed request taken last, the request that acts on it, whether it is energised, waits for HS_LEAD, or is in
hold; since when; and the turn-off that is due. -/
structure Coil where
  cmd : Bool := false
  req : Bool := false
  energised : Bool := false
  lead : Bool := false
  hold : Bool := false
  since : Nat := 0
  due : Option Nat := none
  delayed : Bool := false
deriving DecidableEq, Repr, Inhabited

/-- Fans, coils, clamp meters in units of 10 pJ, when each high side turned on last, and the discharge: the committed request, the supervision start, W and D in
units of 2^-16 × 10 pJ, the change to on, and the triggers seen, with their tick, that have not acted. -/
structure Aux where
  fans : Vector Fan 4 := Vector.replicate 4 {}
  coils : Vector Coil 8 := Vector.replicate 8 {}
  clamp : Vector Nat 2 := Vector.replicate 2 0
  hsAt : Vector Nat 2 := Vector.replicate 2 0
  dschReq : Bool := false
  dschSafe : Bool := false
  w : Nat := 0
  d : Nat := 0
  start : Nat := 0
  trig : Vector (Option Nat) 2 := Vector.replicate 2 none
deriving DecidableEq, Repr

/-! ## One coarse tick -/

/-- What happened in the coarse tick in progress: the bits written, by register and rank of the agent (R383); each count of a
counter, by register and lowest bit (R9); the W1C bits that hardware set, by register (R10); the groups that a CHOKE action
has named (R253). -/
structure TickBooks where
  writes : List (Nat × Nat × Nat) := []
  counts : List (Nat × Nat × Nat) := []
  raised : List (Nat × Nat) := []
  choked : BitVec 16 := 0
  /-- What was added to UQ_L, UQ_N and BK_TIME (R9). -/
  bk : Nat × Nat × Nat := (0, 0, 0)
deriving DecidableEq, Repr

/-! ## Supplies, watchdogs, reset and safety -/

/-- A write or a read in progress on the safety port (R360). -/
inductive SpStage where
  | idle
  | writing (addr : BitVec 14) (seq : BitVec 4)
  | writingLo (addr : BitVec 14) (seq : BitVec 4) (hi : BitVec 16)
deriving DecidableEq, Repr

/-- Supervision: whether the device is in reset; where each supply stands and whether it is restored; hold entry; the
tick of its clock in which each watchdog last faulted LATE, plus 1; the watchdogs whose count waits for step 6;
the reset owed after a device-watchdog fault; SAFE_CLR owed at the next coarse tick; an easel-watchdog fault since the last
STATUS; the safety port; BOOT_REPORT owed; since when VANA is below its warning level; nRST asserted; a blow of DBG_LOCK in
progress. -/
structure Sup where
  inReset : Bool := false
  supplies : Vector SupplyLevel 4 := Vector.replicate 4 .aboveResume
  restored : Vector Bool 4 := Vector.replicate 4 true
  /-- Since when each supply is below its warning level, and at or above its resume level (R340). -/
  lowFrom : Vector (Option Nat) 4 := Vector.replicate 4 none
  upFrom : Vector (Option Nat) 4 := Vector.replicate 4 (some 0)
  /-- The last rise of a supply above its reset level, from which 100 µs count (R341). -/
  releaseFrom : Option Nat := none
  /-- VBAT in mV as last measured, and the last presence test (R346). -/
  vbatMv : Nat := 0
  vbatAt : Option Nat := none
  holdAt : Nat := 0
  lateAt : Vector Nat 9 := Vector.replicate 9 0
  halted : BitVec 8 := 0
  dwdReset : Option Nat := none
  safeClr : Bool := false
  ewdFault : Bool := false
  spStage : SpStage := .idle
  spReply : BitVec 32 := 0
  /-- What SDO shifted out during the last frame (R360). -/
  spOut : BitVec 32 := 0
  spLow : Option (BitVec 16) := none
  bootReport : Bool := true
  vanaLow : Option Nat := none
  nrst : Bool := false
  dbgBlow : Bool := false
deriving DecidableEq, Repr

end Sys2Proof.Machine
end

