-- ==== Sys2Proof/Config.lean ====
section
/-! DEFINITION. What the specification leaves open: constants without a body, of which nothing can be proved. Each is
applied to the number of the draw (the field `freeCount` of the state counts draws) or to the operands it depends on. -/

namespace Sys2Proof.Config

/-- Any word, where the specification states no result. -/
opaque freeWord : Nat → Word
/-- Any register value. -/
opaque freeReg : Nat → Reg
/-- Any natural number. -/
opaque freeNat : Nat → Nat
/-- The state of an easel that is unpredictable under R2. -/
opaque freeEasel : Nat → Machine.Easel
/-- The registers of an unpredictable easel window: offsets and values. -/
opaque freeWindow : Nat → List (BitVec 16 × Reg)
/-- The pins of an unpredictable leg: which pin is high, if any (R3 forbids both). -/
opaque freePins : Nat → Option Bool
/-- The pending and active registers of an unpredictable leg. -/
opaque freeLeg : Nat → Word × Word
/-- The state of a pair that an unpredictable easel owns. -/
opaque freePair : Nat → Machine.AdcPair
/-- What an unpredictable easel writes into its granted memory: offsets and words. -/
opaque freeHostWrites : Nat → List (BitVec 32 × BitVec 64)
/-- Whether a wrong protection setting acts on its own, by draw and address; whether it fails to act, by instant and address
(R407). -/
opaque wildActs : Nat → Nat → Bool
opaque wildFails : Nat → Nat → Bool
/-- The offset and the hysteresis error of a comparator and the error of a threshold DAC code, in units of 2^-9 mV, each before
it is cut to the bound of R397. -/
opaque cmpOffset : Fin 64 → Int
opaque cmpHysError : Fin 64 → Int
opaque dacError : Nat → Int
/-- Where the output of a DAC stands while it settles, in units of 2^-9 mV, by draw (R244). -/
opaque movingDac : Nat → Int
/-- How long after the doorbell read the descriptor reads issue, cut to the 100 ns of R139, by draw. -/
opaque issueDelay : Nat → Nat
/-- The error of SIN within the bound of R90, by angle. -/
opaque sinError : BitVec 32 → Int
/-- The error of COS within the bound of R90, by angle. -/
opaque cosError : BitVec 32 → Int
/-- Words of a FREE ledger entry (R170 gives only its STATE). -/
opaque freeLedgerWord : Nat → BitVec 64

/-- The factory constant that scales a ring's trip to the tile's worst step, in units of 2^-24 (R38). -/
opaque ringScale : Nat
/-- Whether a tempo quotient that is not exact rounds up, by numerator and denominator (R38 states no rounding). -/
opaque tempoRoundsUp : Nat → Nat → Bool
/-- The code of a tempo result at or above 0xFFFF, which U4.12 cannot hold beside the mark of a stopped ring. -/
opaque tempoBeyond : Nat → BitVec 16
/-- The Q of an image, by its IMAGE_ID: its Kelkor build report alone states it (R122). -/
opaque buildQuota : BitVec 32 → Nat

/-- How many ticks of the watchdog oscillator have passed at a coarse tick (R350 bounds its rate, and fixes no phase). -/
opaque wdTicks : Nat → Nat
/-- A word whose value the specification does not state, by the exact result that has no place in the format. -/
opaque unstatedWord : Int → Word
/-- A quotient by zero, where the specification states none. -/
opaque divByZero : Int → Int

end Sys2Proof.Config
end

