-- ==== Sys2Proof/Machine/Flags.lean ====
section
/-! DEFINITION. Arithmetic that several units share: rounding, saturation, and time compared modulo 2^48. -/

namespace Sys2Proof.Machine

/-- `n / d` rounded to the nearest integer, a tie to the even one (R86). -/
def roundDiv (n : Int) (d : Nat) : Int :=
  let q := n.fdiv d
  let r := n.fmod d
  if 2 * r < d then q else if 2 * r > d then q + 1 else if q % 2 = 0 then q else q + 1

/-- The largest and the smallest integer of `w` bits in two's complement. -/
def maxInt (w : Nat) : Int := 2 ^ (w - 1) - 1
def minInt (w : Nat) : Int := -(2 ^ (w - 1))

/-- Clamps to the range of `w` bits (R87). -/
def satInt (w : Nat) (x : Int) : Int := if x > maxInt w then maxInt w else if x < minInt w then minInt w else x

/-- Does saturation to `w` bits change `x`? -/
def saturates (w : Nat) (x : Int) : Bool := decide (x > maxInt w) || decide (x < minInt w)

/-- Saturation to a native word (R87). -/
def sat40 (x : Int) : Word := BitVec.ofInt 40 (satInt 40 x)

/-- A 40-bit value in a 64-bit field, signed format (R15). -/
def fill64 (w : Word) : BitVec 64 := w.signExtend 64

/-- 1.0 in S40.32. -/
def one32 : Int := 2 ^ 32

/-- `x` in the range `lo` to `hi`; the upper bound stands where they cross. -/
def clampInt (x lo hi : Int) : Int := min (max x lo) hi

/-- Fine ticks from `a` to `b`, modulo 2^48 (R48). -/
def ticksFrom (a b : Time) : Nat := (b - a).toNat

/-- Is `a` at or before `b`, with a half range of 2^47 (R48)? -/
def timeLe (a b : Time) : Bool := decide (ticksFrom a b < 2 ^ 47)

/-- Does `b` lie at least `n` fine ticks after `a`? -/
def atLeastAfter (n : Nat) (a b : Time) : Bool := timeLe a b && decide (n ≤ ticksFrom a b)

/-- 40 ns in fine ticks. -/
def ns40 : Nat := 500

/-- The instant stamped as a timestamp (R48). -/
def stamp (t : Time) : Stamp := t.setWidth 32

/-- Does `a` lie between two addresses, both included? -/
def within (a lo hi : Nat) : Bool := decide (lo ≤ a) && decide (a ≤ hi)

/-- Bits `lo` to `lo + w - 1` of a natural number. -/
def bits (n lo w : Nat) : Nat := n / 2 ^ lo % 2 ^ w

/-- The integer square root, by bisection on 41 bits. -/
def isqrtFrom (n : Nat) : Nat → Nat → Nat
  | 0, acc => acc
  | k + 1, acc => if (acc + 2 ^ k) * (acc + 2 ^ k) ≤ n then isqrtFrom n k (acc + 2 ^ k) else isqrtFrom n k acc

end Sys2Proof.Machine
end

