-- ==== Sys2Proof/Machine/Fields.lean ====
section
/-! DEFINITION. The fields of the set-up registers, by the names the register tables give them. -/

namespace Sys2Proof.Machine

/-- A field of a set-up register: the internal address of its register (R379), its lowest bit, its width, and the value
the whole register takes at reset. -/
structure Fld where
  addr : Nat
  lo : Nat
  width : Nat
  rst : Nat
deriving DecidableEq, Repr

/-! One constant per field. The last component repeats the reset value of the register (R20, R385); fused values are those
of log entry 4. A register that occurs several times takes its numbers as arguments; `e` is the easel of a window. -/

namespace R

def DEV_ID_PART : Fld := ⟨0x0, 0, 16, 0xa6440⟩
def DEV_ID_FAMILY : Fld := ⟨0x0, 16, 8, 0xa6440⟩
def DEV_REV_SILICON : Fld := ⟨0x4, 0, 8, 0x1a1⟩
def DEV_REV_IMAGE_ABI : Fld := ⟨0x4, 8, 8, 0x1a1⟩
def DEV_CAPS_LEGS : Fld := ⟨0x8, 0, 8, 0x10f740⟩
def DEV_CAPS_EASELS_M1 : Fld := ⟨0x8, 8, 4, 0x10f740⟩
def DEV_CAPS_TILES_M1 : Fld := ⟨0x8, 12, 4, 0x10f740⟩
def DEV_CAPS_PODS : Fld := ⟨0x8, 16, 5, 0x10f740⟩
def EASEL_ID_EASEL (e : Nat) : Fld := ⟨0x800000 + 0x10000 * e + 0x0, 0, 3, (e + 16 * (e + 1))⟩
def EASEL_ID_FUNCTION (e : Nat) : Fld := ⟨0x800000 + 0x10000 * e + 0x0, 4, 4, (e + 16 * (e + 1))⟩
def TB_CTRL_TREF_MODE : Fld := ⟨0x1000, 0, 2, 0x4⟩
def TB_CTRL_TREF_EN : Fld := ⟨0x1000, 2, 1, 0x4⟩
def TB_CTRL_FORCE_BOSC : Fld := ⟨0x1000, 3, 1, 0x4⟩
def TB_STATUS_STATE : Fld := ⟨0x1004, 0, 3, 0x2⟩
def TB_STATUS_FINE_OK : Fld := ⟨0x1004, 3, 1, 0x2⟩
def TB_STATUS_FINE_STALE : Fld := ⟨0x1004, 4, 1, 0x2⟩
def TB_STATUS_TEMPO_FAULT : Fld := ⟨0x1004, 5, 1, 0x2⟩
def TB_STATUS_TREF_PRESENT : Fld := ⟨0x1004, 6, 1, 0x2⟩
def TB_STATUS_LOSS_STICKY : Fld := ⟨0x1004, 7, 1, 0x2⟩
def TB_STATUS_QUAL_COUNT : Fld := ⟨0x1004, 8, 11, 0x2⟩
def TB_TIME_LO_TIME_LO : Fld := ⟨0x1008, 0, 32, 0x0⟩
def TB_TIME_HI_TIME_HI : Fld := ⟨0x100c, 0, 16, 0x0⟩
def TEMPO_TEMPO : Fld := ⟨0x1010, 0, 16, 0xffff⟩
def TEMPO_RING : Fld := ⟨0x1010, 16, 4, 0xffff⟩
def TEMPO_PEAK_PEAK : Fld := ⟨0x1014, 0, 16, 0x0⟩
def TB_COUNTS_TREF_LOSS_CNT : Fld := ⟨0x1018, 0, 8, 0x0⟩
def TB_COUNTS_FINE_CAL_FAIL_CNT : Fld := ⟨0x1018, 8, 8, 0x0⟩
def TB_COUNTS_TEMPO_FAULT_CNT : Fld := ⟨0x1018, 16, 8, 0x0⟩
def FINE_CAL_TAPS : Fld := ⟨0x101c, 0, 9, 0x0⟩
def FINE_CAL_TAPS_LAST : Fld := ⟨0x101c, 9, 9, 0x0⟩
def DB_CTRL_RUN (e : Nat) : Fld := ⟨0x800000 + 0x10000 * e + 0x100, 0, 1, 0x0⟩
def DB_PERIOD_PERIOD (e : Nat) : Fld := ⟨0x800000 + 0x10000 * e + 0x104, 0, 24, 0x186a⟩
def DB_START_LO_START_LO (e : Nat) : Fld := ⟨0x800000 + 0x10000 * e + 0x108, 0, 32, 0x0⟩
def DB_START_HI_START_HI (e : Nat) : Fld := ⟨0x800000 + 0x10000 * e + 0x10c, 0, 16, 0x0⟩
def DB_COUNT_LO_COUNT_LO (e : Nat) : Fld := ⟨0x800000 + 0x10000 * e + 0x110, 0, 32, 0x0⟩
def DB_COUNT_HI_COUNT_HI (e : Nat) : Fld := ⟨0x800000 + 0x10000 * e + 0x114, 0, 16, 0x0⟩
def EASEL_TIME_LO_TIME_LO (e : Nat) : Fld := ⟨0x800000 + 0x10000 * e + 0x118, 0, 32, 0x0⟩
def EASEL_TIME_HI_TIME_HI (e : Nat) : Fld := ⟨0x800000 + 0x10000 * e + 0x11c, 0, 16, 0x0⟩
def IMG_CTRL_LOAD : Fld := ⟨0x2000, 0, 1, 0x0⟩
def IMG_CTRL_SWAP : Fld := ⟨0x2000, 1, 1, 0x0⟩
def IMG_SRC_LO_SRC_LO : Fld := ⟨0x2004, 0, 32, 0x0⟩
def IMG_SRC_HI_SRC_HI : Fld := ⟨0x2008, 0, 32, 0x0⟩
def IMG_LEN_LEN : Fld := ⟨0x200c, 0, 22, 0x0⟩
def SWAP_TIME_LO_TIME_LO : Fld := ⟨0x2010, 0, 32, 0x0⟩
def SWAP_TIME_HI_TIME_HI : Fld := ⟨0x2014, 0, 16, 0x0⟩
def IMG_STATUS_BUSY : Fld := ⟨0x2018, 0, 1, 0x0⟩
def IMG_STATUS_RESULT : Fld := ⟨0x2018, 1, 3, 0x0⟩
def IMG_STATUS_SWAP_PENDING : Fld := ⟨0x2018, 4, 1, 0x0⟩
def IMG_STATUS_ACTIVE_VALID : Fld := ⟨0x2018, 5, 1, 0x0⟩
def IMG_STATUS_ACTIVE_HALF : Fld := ⟨0x2018, 6, 1, 0x0⟩
def IMG_STATUS_ADM_FAIL_MASK : Fld := ⟨0x2018, 8, 8, 0x0⟩
def IMG_ACTIVE_ID_ID : Fld := ⟨0x201c, 0, 32, 0x0⟩
def IMG_SHADOW_ID_ID : Fld := ⟨0x2020, 0, 32, 0x0⟩
def SCHED_ADM_MODE (e : Nat) : Fld := ⟨0x800000 + 0x10000 * e + 0x200, 0, 1, 0x4000⟩
def SCHED_ADM_MARGIN (e : Nat) : Fld := ⟨0x800000 + 0x10000 * e + 0x200, 8, 8, 0x4000⟩
def SCHED_STATUS_LIMP_STATE (e : Nat) : Fld := ⟨0x800000 + 0x10000 * e + 0x204, 0, 2, 0x0⟩
def SCHED_STATUS_ADM_OK (e : Nat) : Fld := ⟨0x800000 + 0x10000 * e + 0x204, 2, 1, 0x0⟩
def SCHED_STATUS_LIVE_UNFIT (e : Nat) : Fld := ⟨0x800000 + 0x10000 * e + 0x204, 3, 1, 0x0⟩
def SCHED_STATUS_OUT_OF_RATED (e : Nat) : Fld := ⟨0x800000 + 0x10000 * e + 0x204, 4, 1, 0x0⟩
def SCHED_STATUS_OVERRUN (e : Nat) : Fld := ⟨0x800000 + 0x10000 * e + 0x204, 5, 1, 0x0⟩
def SCHED_STATUS_SLIP_OVF (e : Nat) : Fld := ⟨0x800000 + 0x10000 * e + 0x204, 6, 1, 0x0⟩
def SCHED_STATUS_SLIP_RUN (e : Nat) : Fld := ⟨0x800000 + 0x10000 * e + 0x204, 8, 8, 0x0⟩
def SLIP_CNT_COUNT (e : Nat) : Fld := ⟨0x800000 + 0x10000 * e + 0x208, 0, 32, 0x0⟩
def LIMP_CTRL_FORCE_LIMP (e : Nat) : Fld := ⟨0x800000 + 0x10000 * e + 0x20c, 0, 1, 0x0⟩
def LIMP_CTRL_FORCE_HRD (e : Nat) : Fld := ⟨0x800000 + 0x10000 * e + 0x20c, 1, 1, 0x0⟩
def SLACK_LAST_SLACK (e : Nat) : Fld := ⟨0x800000 + 0x10000 * e + 0x210, 0, 24, 0x0⟩
def SLACK_MIN_SLACK (e : Nat) : Fld := ⟨0x800000 + 0x10000 * e + 0x214, 0, 24, 0xffffff⟩
def ENG_STATUS_PHOLD (e : Nat) : Fld := ⟨0x800000 + 0x10000 * e + 0x300, 0, 1, 0x0⟩
def ENG_STATUS_RELEASE_PEND (e : Nat) : Fld := ⟨0x800000 + 0x10000 * e + 0x300, 1, 1, 0x0⟩
def ENG_STATUS_FAULT_V (e : Nat) : Fld := ⟨0x800000 + 0x10000 * e + 0x300, 2, 1, 0x0⟩
def ENG_STATUS_FAULT_P (e : Nat) : Fld := ⟨0x800000 + 0x10000 * e + 0x300, 3, 1, 0x0⟩
def ENG_STATUS_FAULT_F (e : Nat) : Fld := ⟨0x800000 + 0x10000 * e + 0x300, 4, 1, 0x0⟩
def ENG_STATUS_INPUT_VALID (e : Nat) : Fld := ⟨0x800000 + 0x10000 * e + 0x300, 5, 1, 0x0⟩
def ENG_STATUS_LAST_INPUT (e : Nat) : Fld := ⟨0x800000 + 0x10000 * e + 0x300, 6, 6, 0x0⟩
def ENG_STATUS_SCRAPE_OVF (e : Nat) : Fld := ⟨0x800000 + 0x10000 * e + 0x300, 12, 1, 0x0⟩
def ENG_STATUS_SPEC_OVF (e : Nat) : Fld := ⟨0x800000 + 0x10000 * e + 0x300, 13, 1, 0x0⟩
def ENG_STATUS_SAT_OVF (e : Nat) : Fld := ⟨0x800000 + 0x10000 * e + 0x300, 14, 1, 0x0⟩
def ENG_STATUS_LAST_SAT (e : Nat) : Fld := ⟨0x800000 + 0x10000 * e + 0x300, 15, 1, 0x0⟩
def PLAUS_CTRL_RELEASE (e : Nat) : Fld := ⟨0x800000 + 0x10000 * e + 0x304, 0, 1, 0x0⟩
def PLAUS_CTRL_AUTO_REL (e : Nat) : Fld := ⟨0x800000 + 0x10000 * e + 0x304, 8, 8, 0x0⟩
def SCRAPE_CNT_COUNT (e : Nat) : Fld := ⟨0x800000 + 0x10000 * e + 0x308, 0, 32, 0x0⟩
def SPEC_CNT_COUNT (e : Nat) : Fld := ⟨0x800000 + 0x10000 * e + 0x30c, 0, 32, 0x0⟩
def SAT_CNT_COUNT (e : Nat) : Fld := ⟨0x800000 + 0x10000 * e + 0x310, 0, 32, 0x0⟩
def PLAUS_CNT_V (e : Nat) : Fld := ⟨0x800000 + 0x10000 * e + 0x314, 0, 8, 0x0⟩
def PLAUS_CNT_P (e : Nat) : Fld := ⟨0x800000 + 0x10000 * e + 0x314, 8, 8, 0x0⟩
def PLAUS_CNT_F (e : Nat) : Fld := ⟨0x800000 + 0x10000 * e + 0x314, 16, 8, 0x0⟩
def PLB_LO_PLB_LO (e i : Nat) : Fld := ⟨0x800000 + 0x10000 * e + 0x400 + 0x10 * i, 0, 32, 0x0⟩
def PLB_HI_PLB_HI (e i : Nat) : Fld := ⟨0x800000 + 0x10000 * e + 0x404 + 0x10 * i, 0, 8, 0x0⟩
def PCTL_N (e i : Nat) : Fld := ⟨0x800000 + 0x10000 * e + 0x408 + 0x10 * i, 0, 4, 0x0⟩
def PCTL_F_EN (e i : Nat) : Fld := ⟨0x800000 + 0x10000 * e + 0x408 + 0x10 * i, 4, 1, 0x0⟩
def PCTL_MISS (e i : Nat) : Fld := ⟨0x800000 + 0x10000 * e + 0x408 + 0x10 * i, 12, 8, 0x0⟩
def OWN_LEG (i : Nat) : Fld := ⟨0x3000 + 4 * (i / 8), 4 * (i % 8), 4, 0⟩
def OWN_CMP (i : Nat) : Fld := ⟨0x3020 + 4 * (i / 8), 4 * (i % 8), 4, 0⟩
def OWN_AIN (i : Nat) : Fld := ⟨0x3040 + 4 * (i / 8), 4 * (i % 8), 4, 0⟩
def OWN_PODCH (i : Nat) : Fld := ⟨0x3060 + 4 * (i / 8), 4 * (i % 8), 4, 0⟩
def OWN_ADCP (i : Nat) : Fld := ⟨0x3080 + 4 * (i / 8), 4 * (i % 8), 4, 0⟩
def OWN_FAN (i : Nat) : Fld := ⟨0x3084, 4 * i, 4, 0⟩
def OWN_AUX0_DISCHG : Fld := ⟨0x3084, 16, 4, 0x0⟩
def OWN_COIL (i : Nat) : Fld := ⟨0x3088, 4 * i, 4, 0⟩
def OWN_WHEEL_WHEEL : Fld := ⟨0x308c, 0, 4, 0x0⟩
def OWN_WHEEL_METER : Fld := ⟨0x308c, 4, 4, 0x0⟩
def OWN_WHEEL_GRANT : Fld := ⟨0x308c, 8, 8, 0x0⟩
def EASEL_RST_RESET : Fld := ⟨0x3090, 0, 8, 0x0⟩
def EASEL_RST_IN_RESET : Fld := ⟨0x3090, 8, 8, 0x0⟩
def MEM_CTRL_ARB (e : Nat) : Fld := ⟨0x800000 + 0x10000 * e + 0x800, 0, 1, 0x0⟩
def MEM_CTRL_STALL_QUOTA (e : Nat) : Fld := ⟨0x800000 + 0x10000 * e + 0x800, 8, 8, 0x0⟩
def ERST_CTRL_RESET (e : Nat) : Fld := ⟨0x800000 + 0x10000 * e + 0x804, 0, 1, 0x0⟩
def MEM_STATUS_CE (e : Nat) : Fld := ⟨0x800000 + 0x10000 * e + 0x808, 0, 1, 0x0⟩
def MEM_STATUS_UE (e : Nat) : Fld := ⟨0x800000 + 0x10000 * e + 0x808, 1, 1, 0x0⟩
def MEM_STATUS_QUOTA_USED (e : Nat) : Fld := ⟨0x800000 + 0x10000 * e + 0x808, 2, 8, 0x0⟩
def ECC_CNT_CE_CNT (e : Nat) : Fld := ⟨0x800000 + 0x10000 * e + 0x80c, 0, 16, 0x0⟩
def ECC_CNT_UE_CNT (e : Nat) : Fld := ⟨0x800000 + 0x10000 * e + 0x80c, 16, 16, 0x0⟩
def ECC_ADDR_ADDR (e : Nat) : Fld := ⟨0x800000 + 0x10000 * e + 0x810, 0, 17, 0x0⟩
def ECC_ADDR_STORE (e : Nat) : Fld := ⟨0x800000 + 0x10000 * e + 0x810, 17, 1, 0x0⟩
def ECC_ADDR_VALID (e : Nat) : Fld := ⟨0x800000 + 0x10000 * e + 0x810, 18, 1, 0x0⟩
def BTEST_CTRL_EN (e : Nat) : Fld := ⟨0x800000 + 0x10000 * e + 0x814, 0, 1, 0x1000⟩
def BTEST_CTRL_RESUME (e : Nat) : Fld := ⟨0x800000 + 0x10000 * e + 0x814, 1, 1, 0x1000⟩
def BTEST_CTRL_INTERVAL (e : Nat) : Fld := ⟨0x800000 + 0x10000 * e + 0x814, 4, 12, 0x1000⟩
def BTEST_CTRL_START (e : Nat) : Fld := ⟨0x800000 + 0x10000 * e + 0x814, 16, 11, 0x1000⟩
def BTEST_STATUS_REGION (e : Nat) : Fld := ⟨0x800000 + 0x10000 * e + 0x818, 0, 11, 0x0⟩
def BTEST_STATUS_BUSY (e : Nat) : Fld := ⟨0x800000 + 0x10000 * e + 0x818, 11, 1, 0x0⟩
def BTEST_STATUS_PARKED (e : Nat) : Fld := ⟨0x800000 + 0x10000 * e + 0x818, 12, 1, 0x0⟩
def BTEST_STATUS_FAIL (e : Nat) : Fld := ⟨0x800000 + 0x10000 * e + 0x818, 13, 1, 0x0⟩
def BTEST_FAIL_ADDR (e : Nat) : Fld := ⟨0x800000 + 0x10000 * e + 0x81c, 0, 17, 0x0⟩
def BTEST_FAIL_BIT (e : Nat) : Fld := ⟨0x800000 + 0x10000 * e + 0x81c, 17, 6, 0x0⟩
def BTEST_SWEEPS_SWEEPS (e : Nat) : Fld := ⟨0x800000 + 0x10000 * e + 0x820, 0, 16, 0x0⟩
def RING_CTRL_EN (e : Nat) : Fld := ⟨0x800000 + 0x10000 * e + 0xa00, 0, 1, 0x0⟩
def HCB_OFF_OFF (e : Nat) : Fld := ⟨0x800000 + 0x10000 * e + 0xa04, 0, 32, 0x0⟩
def CMD_BASE_OFF (e : Nat) : Fld := ⟨0x800000 + 0x10000 * e + 0xa08, 0, 32, 0x0⟩
def CPL_BASE_OFF (e : Nat) : Fld := ⟨0x800000 + 0x10000 * e + 0xa0c, 0, 32, 0x0⟩
def EVT_BASE_OFF (e : Nat) : Fld := ⟨0x800000 + 0x10000 * e + 0xa10, 0, 32, 0x0⟩
def SMP_BASE_OFF (e : Nat) : Fld := ⟨0x800000 + 0x10000 * e + 0xa14, 0, 32, 0x0⟩
def RING_SIZE_CMD_LOG2 (e : Nat) : Fld := ⟨0x800000 + 0x10000 * e + 0xa18, 0, 4, 0x4444⟩
def RING_SIZE_CPL_LOG2 (e : Nat) : Fld := ⟨0x800000 + 0x10000 * e + 0xa18, 4, 4, 0x4444⟩
def RING_SIZE_EVT_LOG2 (e : Nat) : Fld := ⟨0x800000 + 0x10000 * e + 0xa18, 8, 4, 0x4444⟩
def RING_SIZE_SMP_LOG2 (e : Nat) : Fld := ⟨0x800000 + 0x10000 * e + 0xa18, 12, 4, 0x4444⟩
def RING_IRQ_VEC_CPL (e : Nat) : Fld := ⟨0x800000 + 0x10000 * e + 0xa1c, 0, 4, 0x0⟩
def RING_IRQ_VEC_EVT (e : Nat) : Fld := ⟨0x800000 + 0x10000 * e + 0xa1c, 4, 4, 0x0⟩
def RING_IRQ_VEC_SMP (e : Nat) : Fld := ⟨0x800000 + 0x10000 * e + 0xa1c, 8, 4, 0x0⟩
def RING_IRQ_IE_CPL (e : Nat) : Fld := ⟨0x800000 + 0x10000 * e + 0xa1c, 12, 1, 0x0⟩
def RING_IRQ_IE_EVT (e : Nat) : Fld := ⟨0x800000 + 0x10000 * e + 0xa1c, 13, 1, 0x0⟩
def RING_IRQ_IE_SMP (e : Nat) : Fld := ⟨0x800000 + 0x10000 * e + 0xa1c, 14, 1, 0x0⟩
def RING_STATUS_OUTAGE (e : Nat) : Fld := ⟨0x800000 + 0x10000 * e + 0xa20, 0, 1, 0x5⟩
def RING_STATUS_LINK_HOLD (e : Nat) : Fld := ⟨0x800000 + 0x10000 * e + 0xa20, 1, 1, 0x5⟩
def RING_STATUS_RESET_DONE (e : Nat) : Fld := ⟨0x800000 + 0x10000 * e + 0xa20, 2, 1, 0x5⟩
def RING_STATUS_EVT_GAP (e : Nat) : Fld := ⟨0x800000 + 0x10000 * e + 0xa20, 3, 1, 0x5⟩
def RING_STATUS_SMP_GAP (e : Nat) : Fld := ⟨0x800000 + 0x10000 * e + 0xa20, 4, 1, 0x5⟩
def RING_STATUS_INTAKE_ERR (e : Nat) : Fld := ⟨0x800000 + 0x10000 * e + 0xa20, 5, 1, 0x5⟩
def RING_STATUS_SKIP_OVF (e : Nat) : Fld := ⟨0x800000 + 0x10000 * e + 0xa20, 6, 1, 0x5⟩
def RING_STATUS_EVT_DROP_OVF (e : Nat) : Fld := ⟨0x800000 + 0x10000 * e + 0xa20, 7, 1, 0x5⟩
def RING_STATUS_SMP_DROP_OVF (e : Nat) : Fld := ⟨0x800000 + 0x10000 * e + 0xa20, 8, 1, 0x5⟩
def RING_STATUS_INFLIGHT (e : Nat) : Fld := ⟨0x800000 + 0x10000 * e + 0xa20, 9, 1, 0x5⟩
def RING_IDX0_CMD_HEAD (e : Nat) : Fld := ⟨0x800000 + 0x10000 * e + 0xa24, 0, 16, 0x0⟩
def RING_IDX0_CPL_TAIL (e : Nat) : Fld := ⟨0x800000 + 0x10000 * e + 0xa24, 16, 16, 0x0⟩
def RING_IDX1_EVT_TAIL (e : Nat) : Fld := ⟨0x800000 + 0x10000 * e + 0xa28, 0, 16, 0x0⟩
def RING_IDX1_SMP_TAIL (e : Nat) : Fld := ⟨0x800000 + 0x10000 * e + 0xa28, 16, 16, 0x0⟩
def DB_SEEN_CMD_TAIL (e : Nat) : Fld := ⟨0x800000 + 0x10000 * e + 0xa2c, 0, 16, 0x0⟩
def INTAKE_SKIP_CNT_COUNT (e : Nat) : Fld := ⟨0x800000 + 0x10000 * e + 0xa30, 0, 32, 0x0⟩
def EVT_DROP_CNT_COUNT (e : Nat) : Fld := ⟨0x800000 + 0x10000 * e + 0xa34, 0, 32, 0x0⟩
def SMP_DROP_CNT_COUNT (e : Nat) : Fld := ⟨0x800000 + 0x10000 * e + 0xa38, 0, 32, 0x0⟩
def INTAKE_ERR_CNT_COUNT (e : Nat) : Fld := ⟨0x800000 + 0x10000 * e + 0xa3c, 0, 16, 0x0⟩
def GRANT_LO_LOG2 (i : Nat) : Fld := ⟨0x4000 + 0x8 * i, 0, 5, 0x0⟩
def GRANT_LO_BASE_LO (i : Nat) : Fld := ⟨0x4000 + 0x8 * i, 16, 16, 0x0⟩
def GRANT_HI_BASE_HI (i : Nat) : Fld := ⟨0x4004 + 0x8 * i, 0, 32, 0x0⟩
def F0_HCB_LO_ADDR_LO : Fld := ⟨0x4040, 0, 32, 0x0⟩
def F0_HCB_HI_ADDR_HI : Fld := ⟨0x4044, 0, 32, 0x0⟩
def F0_EVT_LO_ADDR_LO : Fld := ⟨0x4048, 0, 32, 0x0⟩
def F0_EVT_HI_ADDR_HI : Fld := ⟨0x404c, 0, 32, 0x0⟩
def F0_RING_CTRL_EN : Fld := ⟨0x4050, 0, 1, 0x40⟩
def F0_RING_CTRL_EVT_LOG2 : Fld := ⟨0x4050, 4, 4, 0x40⟩
def F0_RING_CTRL_VEC : Fld := ⟨0x4050, 8, 4, 0x40⟩
def F0_RING_CTRL_IE : Fld := ⟨0x4050, 12, 1, 0x40⟩
def F0_RING_STATUS_EVT_TAIL : Fld := ⟨0x4054, 0, 16, 0x0⟩
def F0_RING_STATUS_EVT_GAP : Fld := ⟨0x4054, 16, 1, 0x0⟩
def LINK_STATUS_SPEED : Fld := ⟨0x4058, 0, 2, 0x0⟩
def LINK_STATUS_WIDTH : Fld := ⟨0x4058, 2, 2, 0x0⟩
def LINK_STATUS_DL_ACTIVE : Fld := ⟨0x4058, 4, 1, 0x0⟩
def LINK_STATUS_LINK_FAULT_CNT : Fld := ⟨0x4058, 8, 8, 0x0⟩
def LDG_IDX_TAIL (i : Nat) : Fld := ⟨0x5000 + 0x20 * i, 0, 13, 0x0⟩
def LDG_IDX_CMT (i : Nat) : Fld := ⟨0x5000 + 0x20 * i, 16, 13, 0x0⟩
def LDG_RET_RET (i : Nat) : Fld := ⟨0x5004 + 0x20 * i, 0, 13, 0x0⟩
def LDG_LAST_LO_DB_LO (i : Nat) : Fld := ⟨0x5008 + 0x20 * i, 0, 32, 0x0⟩
def LDG_LAST_HI_DB_HI (i : Nat) : Fld := ⟨0x500c + 0x20 * i, 0, 16, 0x0⟩
def LDG_LAST_HI_CMD_IDX (i : Nat) : Fld := ⟨0x500c + 0x20 * i, 16, 16, 0x0⟩
def LDG_ECC_CE_CNT (i : Nat) : Fld := ⟨0x5010 + 0x20 * i, 0, 16, 0x0⟩
def LDG_ECC_UE_CNT (i : Nat) : Fld := ⟨0x5010 + 0x20 * i, 16, 16, 0x0⟩
def LDG_CTRL_ERST_POLICY (i : Nat) : Fld := ⟨0x5014 + 0x20 * i, 0, 1, 0x0⟩
def LDG_CTRL_ABORT (i : Nat) : Fld := ⟨0x5014 + 0x20 * i, 1, 1, 0x0⟩
def LDG_STATUS_REPLAY_WAIT (i : Nat) : Fld := ⟨0x5018 + 0x20 * i, 0, 1, 0x0⟩
def LDG_STATUS_UE (i : Nat) : Fld := ⟨0x5018 + 0x20 * i, 1, 1, 0x0⟩
def LDG_STATUS_UE_ENTRY (i : Nat) : Fld := ⟨0x5018 + 0x20 * i, 4, 12, 0x0⟩
def LDG_SEL_ENTRY : Fld := ⟨0x5100, 0, 12, 0x0⟩
def LDG_SEL_EASEL : Fld := ⟨0x5100, 16, 3, 0x0⟩
def LDG_DATA_DATA (i : Nat) : Fld := ⟨0x5104 + 0x4 * i, 0, 32, 0x0⟩
def CK_INFO_VALID (i : Nat) : Fld := ⟨0x5200 + 0x20 * i, 0, 1, 0x0⟩
def CK_INFO_RESET_AFTER (i : Nat) : Fld := ⟨0x5200 + 0x20 * i, 1, 1, 0x0⟩
def CK_INFO_SEQ (i : Nat) : Fld := ⟨0x5200 + 0x20 * i, 8, 8, 0x0⟩
def CK_INFO_PENDING (i : Nat) : Fld := ⟨0x5200 + 0x20 * i, 16, 13, 0x0⟩
def CK_LAST_LO_DB_LO (i : Nat) : Fld := ⟨0x5204 + 0x20 * i, 0, 32, 0x0⟩
def CK_LAST_HI_DB_HI (i : Nat) : Fld := ⟨0x5208 + 0x20 * i, 0, 16, 0x0⟩
def CK_LAST_HI_LAST_CMD_IDX (i : Nat) : Fld := ⟨0x5208 + 0x20 * i, 16, 16, 0x0⟩
def CK_PEND_OLDEST_CMD_IDX (i : Nat) : Fld := ⟨0x520c + 0x20 * i, 0, 16, 0x0⟩
def CK_PEND_OLDEST_TAG (i : Nat) : Fld := ⟨0x520c + 0x20 * i, 16, 16, 0x0⟩
def CK_TIME_LO_TIME_LO (i : Nat) : Fld := ⟨0x5210 + 0x20 * i, 0, 32, 0x0⟩
def CK_TIME_HI_TIME_HI (i : Nat) : Fld := ⟨0x5214 + 0x20 * i, 0, 16, 0x0⟩
def CK_TIME_HI_LAST_TAG (i : Nat) : Fld := ⟨0x5214 + 0x20 * i, 16, 16, 0x0⟩
def LDG_ABORT_ABORT (e : Nat) : Fld := ⟨0x800000 + 0x10000 * e + 0xc00, 0, 1, 0x0⟩
def ADC_PCTRL_MODE (i : Nat) : Fld := ⟨0x6000 + 0x100 * i, 0, 1, 0x8⟩
def ADC_PCTRL_CAL (i : Nat) : Fld := ⟨0x6000 + 0x100 * i, 1, 1, 0x8⟩
def ADC_PCTRL_CAL_BUSY (i : Nat) : Fld := ⟨0x6000 + 0x100 * i, 2, 1, 0x8⟩
def ADC_PCTRL_CAL_OK (i : Nat) : Fld := ⟨0x6000 + 0x100 * i, 3, 1, 0x8⟩
def ADC_PCTRL_SKEW_B (i : Nat) : Fld := ⟨0x6000 + 0x100 * i, 4, 4, 0x8⟩
def ADC_PCTRL_SEQ_EN (i : Nat) : Fld := ⟨0x6000 + 0x100 * i, 8, 4, 0x8⟩
def ADC_PCTRL_BUSY (i : Nat) : Fld := ⟨0x6000 + 0x100 * i, 12, 4, 0x8⟩
def ADC_PCTRL_PEND (i : Nat) : Fld := ⟨0x6000 + 0x100 * i, 16, 4, 0x8⟩
def ADC_SEQ_SRC (i j : Nat) : Fld := ⟨0x6004 + 0x100 * i + 0x4 * j, 0, 2, 0x0⟩
def ADC_SEQ_FIRST (i j : Nat) : Fld := ⟨0x6004 + 0x100 * i + 0x4 * j, 2, 5, 0x0⟩
def ADC_SEQ_LEN_M1 (i j : Nat) : Fld := ⟨0x6004 + 0x100 * i + 0x4 * j, 7, 5, 0x0⟩
def ADC_SEQ_LEG (i j : Nat) : Fld := ⟨0x6004 + 0x100 * i + 0x4 * j, 12, 6, 0x0⟩
def ADC_SEQ_POS (i j : Nat) : Fld := ⟨0x6004 + 0x100 * i + 0x4 * j, 18, 5, 0x0⟩
def ADC_TOFS_OFFSET (i j : Nat) : Fld := ⟨0x6014 + 0x100 * i + 0x4 * j, 0, 24, 0x0⟩
def ADC_ANG_ANGLE (i j : Nat) : Fld := ⟨0x6024 + 0x100 * i + 0x4 * j, 0, 32, 0x0⟩
def STEP_AIN (i j : Nat) : Fld := ⟨0x6040 + 0x100 * i + 0x4 * j, 0, 6, 0x0⟩
def STEP_AVG_M1 (i j : Nat) : Fld := ⟨0x6040 + 0x100 * i + 0x4 * j, 6, 8, 0x0⟩
def STEP_SHIFT (i j : Nat) : Fld := ⟨0x6040 + 0x100 * i + 0x4 * j, 14, 4, 0x0⟩
def STEP_SMP (i j : Nat) : Fld := ⟨0x6040 + 0x100 * i + 0x4 * j, 18, 1, 0x0⟩
def STEP_MTR (i j : Nat) : Fld := ⟨0x6040 + 0x100 * i + 0x4 * j, 19, 1, 0x0⟩
def CAL_A_OFS (i : Nat) : Fld := ⟨0x60c0 + 0x100 * i, 0, 16, 0x40000000⟩
def CAL_A_GAIN (i : Nat) : Fld := ⟨0x60c0 + 0x100 * i, 16, 16, 0x40000000⟩
def CAL_B_OFS (i : Nat) : Fld := ⟨0x60c4 + 0x100 * i, 0, 16, 0x40000000⟩
def CAL_B_GAIN (i : Nat) : Fld := ⟨0x60c4 + 0x100 * i, 16, 16, 0x40000000⟩
def POD_MRG_EN (i : Nat) : Fld := ⟨0x7000 + 0x10 * i, 0, 1, 0x0⟩
def POD_MRG_SMP (i : Nat) : Fld := ⟨0x7000 + 0x10 * i, 1, 1, 0x0⟩
def POD_MRG_MTR (i : Nat) : Fld := ⟨0x7000 + 0x10 * i, 2, 1, 0x0⟩
def POD_MRG_PICK (i : Nat) : Fld := ⟨0x7000 + 0x10 * i, 3, 1, 0x0⟩
def POD_PICK_PICK_OFS (i : Nat) : Fld := ⟨0x7004 + 0x10 * i, 0, 24, 0x0⟩
def POD_PGD_PGD (i : Nat) : Fld := ⟨0x7008 + 0x10 * i, 0, 24, 0x0⟩
def Q_STATUS_FILL (e : Nat) : Fld := ⟨0x800000 + 0x10000 * e + 0xd00, 0, 8, 0x0⟩
def Q_STATUS_QOVR (e : Nat) : Fld := ⟨0x800000 + 0x10000 * e + 0xd00, 8, 1, 0x0⟩
def Q_STATUS_QOVR_OVF (e : Nat) : Fld := ⟨0x800000 + 0x10000 * e + 0xd00, 9, 1, 0x0⟩
def Q_STATUS_TDROP_OVF (e : Nat) : Fld := ⟨0x800000 + 0x10000 * e + 0xd00, 10, 1, 0x0⟩
def QOVR_CNT_COUNT (e : Nat) : Fld := ⟨0x800000 + 0x10000 * e + 0xd04, 0, 32, 0x0⟩
def TRIG_DROP_CNT_COUNT (e : Nat) : Fld := ⟨0x800000 + 0x10000 * e + 0xd08, 0, 32, 0x0⟩
def Q_PEAK_PEAK (e : Nat) : Fld := ⟨0x800000 + 0x10000 * e + 0xd0c, 0, 8, 0x0⟩
def SL_CTRL_EN (i : Nat) : Fld := ⟨0x7800 + 0x80 * i, 0, 1, 0x41e34⟩
def SL_CTRL_RETRAIN (i : Nat) : Fld := ⟨0x7800 + 0x80 * i, 1, 1, 0x41e34⟩
def SL_CTRL_FREQ (i : Nat) : Fld := ⟨0x7800 + 0x80 * i, 2, 2, 0x41e34⟩
def SL_CTRL_RETRY_MAX (i : Nat) : Fld := ⟨0x7800 + 0x80 * i, 4, 4, 0x41e34⟩
def SL_CTRL_LEVEL_MAX (i : Nat) : Fld := ⟨0x7800 + 0x80 * i, 8, 6, 0x41e34⟩
def SL_CTRL_LEVEL_START (i : Nat) : Fld := ⟨0x7800 + 0x80 * i, 14, 6, 0x41e34⟩
def SL_CAP_E_CAP (i : Nat) : Fld := ⟨0x7804 + 0x80 * i, 0, 16, 0x7800⟩
def SL_PCTL_VT_LO (i : Nat) : Fld := ⟨0x7808 + 0x80 * i, 0, 8, 0x9b8c⟩
def SL_PCTL_VT_HI (i : Nat) : Fld := ⟨0x7808 + 0x80 * i, 8, 8, 0x9b8c⟩
def SL_STATUS_STATE (i : Nat) : Fld := ⟨0x780c + 0x80 * i, 0, 3, 0x0⟩
def SL_STATUS_LEVEL (i : Nat) : Fld := ⟨0x780c + 0x80 * i, 3, 6, 0x0⟩
def SL_STATUS_VSTORE (i : Nat) : Fld := ⟨0x780c + 0x80 * i, 9, 8, 0x0⟩
def SL_STATUS_PG (i : Nat) : Fld := ⟨0x780c + 0x80 * i, 17, 1, 0x0⟩
def SL_STATUS_CAP_CUT (i : Nat) : Fld := ⟨0x780c + 0x80 * i, 18, 1, 0x0⟩
def SL_STATUS_ON_ALT (i : Nat) : Fld := ⟨0x780c + 0x80 * i, 19, 1, 0x0⟩
def SL_STATUS_CFG_OK (i : Nat) : Fld := ⟨0x780c + 0x80 * i, 20, 1, 0x0⟩
def SL_STATUS_CH_UP (i : Nat) : Fld := ⟨0x780c + 0x80 * i, 21, 4, 0x0⟩
def SL_ENERGY_USED (i : Nat) : Fld := ⟨0x7810 + 0x80 * i, 0, 16, 0x78000000⟩
def SL_ENERGY_REMAIN (i : Nat) : Fld := ⟨0x7810 + 0x80 * i, 16, 16, 0x78000000⟩
def SL_COUNTS_RETRAIN_CNT (i : Nat) : Fld := ⟨0x7814 + 0x80 * i, 0, 8, 0x0⟩
def SL_COUNTS_CAPCUT_CNT (i : Nat) : Fld := ⟨0x7814 + 0x80 * i, 8, 8, 0x0⟩
def SL_COUNTS_CRC_ERR_CNT (i : Nat) : Fld := ⟨0x7814 + 0x80 * i, 16, 8, 0x0⟩
def SL_COUNTS_BURST_CNT (i : Nat) : Fld := ⟨0x7814 + 0x80 * i, 24, 8, 0x0⟩
def SL_ACC_ADDR (i : Nat) : Fld := ⟨0x7818 + 0x80 * i, 0, 8, 0x0⟩
def SL_ACC_RD (i : Nat) : Fld := ⟨0x7818 + 0x80 * i, 8, 1, 0x0⟩
def SL_ACC_WR (i : Nat) : Fld := ⟨0x7818 + 0x80 * i, 9, 1, 0x0⟩
def SL_ACC_BUSY (i : Nat) : Fld := ⟨0x7818 + 0x80 * i, 10, 1, 0x0⟩
def SL_ACC_ERR (i : Nat) : Fld := ⟨0x7818 + 0x80 * i, 11, 1, 0x0⟩
def SL_ACC_DATA (i : Nat) : Fld := ⟨0x7818 + 0x80 * i, 16, 16, 0x0⟩
def SL_ALARM_LAST (i : Nat) : Fld := ⟨0x781c + 0x80 * i, 0, 8, 0x0⟩
def SL_ALARM_VIA_BURST (i : Nat) : Fld := ⟨0x781c + 0x80 * i, 8, 1, 0x0⟩
def PCFG_CTRL_CTRL (i : Nat) : Fld := ⟨0x7820 + 0x80 * i, 0, 16, 0x640000⟩
def PCFG_CTRL_DARK_T (i : Nat) : Fld := ⟨0x7820 + 0x80 * i, 16, 16, 0x640000⟩
def PCFG_ALM_ALARM_EN (i : Nat) : Fld := ⟨0x7824 + 0x80 * i, 0, 16, 0x0⟩
def PCFG_CH_EN (i j : Nat) : Fld := ⟨0x7828 + 0x80 * i + 0x4 * j, 0, 1, 0xffff001e⟩
def PCFG_CH_OSR_M1 (i j : Nat) : Fld := ⟨0x7828 + 0x80 * i + 0x4 * j, 1, 8, 0xffff001e⟩
def PCFG_CH_DIV_M1 (i j : Nat) : Fld := ⟨0x7828 + 0x80 * i + 0x4 * j, 9, 6, 0xffff001e⟩
def PCFG_CH_OVL (i j : Nat) : Fld := ⟨0x7828 + 0x80 * i + 0x4 * j, 16, 16, 0xffff001e⟩
def PHASE_PHASE (i j : Nat) : Fld := ⟨0x7838 + 0x80 * i + 0x4 * j, 0, 24, 0x0⟩
def LAT_L (i j : Nat) : Fld := ⟨0x7848 + 0x80 * i + 0x4 * j, 0, 24, 0x0⟩
def LEG_CFG_CMODE (i : Nat) : Fld := ⟨0x8000 + 0x20 * i, 0, 1, 0x0⟩
def LEG_CFG_UPD (i : Nat) : Fld := ⟨0x8000 + 0x20 * i, 1, 2, 0x0⟩
def LEG_CFG_PMODE (i : Nat) : Fld := ⟨0x8000 + 0x20 * i, 3, 1, 0x0⟩
def LEG_CFG_OUT (i : Nat) : Fld := ⟨0x8000 + 0x20 * i, 4, 2, 0x0⟩
def LEG_CFG_HOLD_ACT (i : Nat) : Fld := ⟨0x8000 + 0x20 * i, 6, 1, 0x0⟩
def LEG_PER_PERIOD (i : Nat) : Fld := ⟨0x8004 + 0x20 * i, 0, 24, 0x1e848⟩
def LEG_PHS_CPHASE (i : Nat) : Fld := ⟨0x8008 + 0x20 * i, 0, 24, 0x0⟩
def LEG_MINP_MINP (i : Nat) : Fld := ⟨0x800c + 0x20 * i, 0, 16, 0x0⟩
def LEG_DT_DTH (i : Nat) : Fld := ⟨0x8010 + 0x20 * i, 0, 12, 0x4e204e2⟩
def LEG_DT_DTL (i : Nat) : Fld := ⟨0x8010 + 0x20 * i, 16, 12, 0x4e204e2⟩
def LEG_FLT_FLT_POL (i : Nat) : Fld := ⟨0x8014 + 0x20 * i, 0, 1, 0x1⟩
def LEG_FLT_FLT_SELF (i : Nat) : Fld := ⟨0x8014 + 0x20 * i, 1, 1, 0x1⟩
def LEG_FLT_FLT_GRP (i : Nat) : Fld := ⟨0x8014 + 0x20 * i, 16, 16, 0x1⟩
def LEG_STATUS_CHOKED (i : Nat) : Fld := ⟨0x8018 + 0x20 * i, 0, 1, 0xc1⟩
def LEG_STATUS_CAUSE (i : Nat) : Fld := ⟨0x8018 + 0x20 * i, 1, 7, 0xc1⟩
def LEG_STATUS_FLT_IN (i : Nat) : Fld := ⟨0x8018 + 0x20 * i, 8, 1, 0xc1⟩
def LEG_STATUS_X (i : Nat) : Fld := ⟨0x8018 + 0x20 * i, 9, 1, 0xc1⟩
def CMP_CFG_AIN (i : Nat) : Fld := ⟨0x8800 + 0x10 * i, 0, 6, 0xc0⟩
def CMP_CFG_RES (i : Nat) : Fld := ⟨0x8800 + 0x10 * i, 6, 2, 0xc0⟩
def CMP_CFG_HYS (i : Nat) : Fld := ⟨0x8800 + 0x10 * i, 8, 2, 0xc0⟩
def CMP_CFG_FILT (i : Nat) : Fld := ⟨0x8800 + 0x10 * i, 10, 2, 0xc0⟩
def CMP_CFG_BLANK_LEG (i : Nat) : Fld := ⟨0x8800 + 0x10 * i, 12, 6, 0xc0⟩
def CMP_CFG_BLANK_EDGE (i : Nat) : Fld := ⟨0x8800 + 0x10 * i, 18, 2, 0xc0⟩
def CMP_CFG_BLANK_T (i : Nat) : Fld := ⟨0x8800 + 0x10 * i, 20, 8, 0xc0⟩
def CMP_CFG_PROT (i : Nat) : Fld := ⟨0x8800 + 0x10 * i, 28, 1, 0xc0⟩
def CMP_CFG_ASYNC_UP (i : Nat) : Fld := ⟨0x8800 + 0x10 * i, 29, 1, 0xc0⟩
def CMP_CFG_ASYNC_DN (i : Nat) : Fld := ⟨0x8800 + 0x10 * i, 30, 1, 0xc0⟩
def CMP_CFG_BLANK_ASYNC (i : Nat) : Fld := ⟨0x8800 + 0x10 * i, 31, 1, 0xc0⟩
def CMP_THR_UPPER (i : Nat) : Fld := ⟨0x8804 + 0x10 * i, 0, 12, 0xfff⟩
def CMP_THR_LOWER (i : Nat) : Fld := ⟨0x8804 + 0x10 * i, 16, 12, 0xfff⟩
def CMP_GRP_GRP_UP (i : Nat) : Fld := ⟨0x8808 + 0x10 * i, 0, 16, 0x0⟩
def CMP_GRP_GRP_DN (i : Nat) : Fld := ⟨0x8808 + 0x10 * i, 16, 16, 0x0⟩
def CMP_STATUS_ABOVE (i : Nat) : Fld := ⟨0x880c + 0x10 * i, 0, 1, 0x0⟩
def CMP_STATUS_BELOW (i : Nat) : Fld := ⟨0x880c + 0x10 * i, 1, 1, 0x0⟩
def CMP_STATUS_RAW_ABOVE (i : Nat) : Fld := ⟨0x880c + 0x10 * i, 2, 1, 0x0⟩
def CMP_STATUS_RAW_BELOW (i : Nat) : Fld := ⟨0x880c + 0x10 * i, 3, 1, 0x0⟩
def CMP_STATUS_SETTLING (i : Nat) : Fld := ⟨0x880c + 0x10 * i, 4, 1, 0x0⟩
def CG_LO_LEGS_LO (i : Nat) : Fld := ⟨0x8c00 + 0x10 * i, 0, 32, 0x0⟩
def CG_HI_LEGS_HI (i : Nat) : Fld := ⟨0x8c04 + 0x10 * i, 0, 32, 0x0⟩
def CG_CTRL_GMODE (i : Nat) : Fld := ⟨0x8c08 + 0x10 * i, 0, 1, 0x0⟩
def CG_CTRL_FORCE (i : Nat) : Fld := ⟨0x8c08 + 0x10 * i, 1, 1, 0x0⟩
def CG_CTRL_CLR (i : Nat) : Fld := ⟨0x8c08 + 0x10 * i, 2, 1, 0x0⟩
def CG_CTRL_ACTIVE (i : Nat) : Fld := ⟨0x8c08 + 0x10 * i, 3, 1, 0x0⟩
def CG_CTRL_HIT (i : Nat) : Fld := ⟨0x8c08 + 0x10 * i, 4, 1, 0x0⟩
def CG_CTRL_HIT_CNT (i : Nat) : Fld := ⟨0x8c08 + 0x10 * i, 8, 8, 0x0⟩
def ROUTE_SRC (i : Nat) : Fld := ⟨0x8d00 + 0x4 * i, 0, 8, 0x0⟩
def ROUTE_ACTION (i : Nat) : Fld := ⟨0x8d00 + 0x4 * i, 8, 3, 0x0⟩
def ROUTE_EASEL (i : Nat) : Fld := ⟨0x8d00 + 0x4 * i, 11, 3, 0x0⟩
def ROUTE_EN (i : Nat) : Fld := ⟨0x8d00 + 0x4 * i, 14, 1, 0x0⟩
def ROUTE_ARG (i : Nat) : Fld := ⟨0x8d00 + 0x4 * i, 16, 16, 0x0⟩
def RTR_LATCH_LATCH (e : Nat) : Fld := ⟨0x800000 + 0x10000 * e + 0x2c00, 0, 32, 0x0⟩
def WHL_CTRL_EN : Fld := ⟨0x9000, 0, 1, 0x24800⟩
def WHL_CTRL_LIMP_EN : Fld := ⟨0x9000, 1, 1, 0x24800⟩
def WHL_CTRL_LIMP_CMP : Fld := ⟨0x9000, 2, 6, 0x24800⟩
def WHL_CTRL_LOCK_N : Fld := ⟨0x9000, 8, 4, 0x24800⟩
def WHL_CTRL_LOSS_N : Fld := ⟨0x9000, 12, 4, 0x24800⟩
def WHL_CTRL_LIMP_SH : Fld := ⟨0x9000, 16, 4, 0x24800⟩
def WHL_FNOM_FNOM : Fld := ⟨0x9004, 0, 24, 0x8637c⟩
def WHL_FMIN_FMIN : Fld := ⟨0x9008, 0, 24, 0x6b5fd⟩
def WHL_FMAX_FMAX : Fld := ⟨0x900c, 0, 24, 0xbbe7a⟩
def WHL_BND_LOCK_BND : Fld := ⟨0x9010, 0, 16, 0x5b000b6⟩
def WHL_BND_LOSS_BND : Fld := ⟨0x9010, 16, 16, 0x5b000b6⟩
def WHL_SLEW_SLEW_MAX : Fld := ⟨0x9014, 0, 16, 0x100⟩
def WHL_LIMP_LIMP_ANG : Fld := ⟨0x9018, 0, 32, 0x55555555⟩
def WHL_LIMP2_LIMP_DLY : Fld := ⟨0x901c, 0, 16, 0x100000⟩
def WHL_LIMP2_LIMP_TOL : Fld := ⟨0x901c, 16, 8, 0x100000⟩
def WHL_RAMP_RAMP_T : Fld := ⟨0x9020, 0, 16, 0x7d0⟩
def WHL_STATUS_STATE : Fld := ⟨0x9024, 0, 3, 0x0⟩
def WHL_STATUS_LOSS_CNT : Fld := ⟨0x9024, 8, 8, 0x0⟩
def WHL_STATUS_FAIL_CNT : Fld := ⟨0x9024, 16, 8, 0x0⟩
def WHL_STATUS_QUAL_TURNS : Fld := ⟨0x9024, 24, 4, 0x0⟩
def WHL_ANGLE_ANGLE : Fld := ⟨0x9028, 0, 32, 0x0⟩
def WHL_FREQ_FREQ : Fld := ⟨0x902c, 0, 24, 0x0⟩
def WHL_LSTAT_EDGES : Fld := ⟨0x9030, 0, 2, 0x0⟩
def WHL_LSTAT_LIMP_BAD_CNT : Fld := ⟨0x9030, 8, 8, 0x0⟩
def WHL_LSTAT_LATE_ARM_CNT : Fld := ⟨0x9030, 16, 8, 0x0⟩
def WHL_EANG_ANGLE (i : Nat) : Fld := ⟨0x9040 + 0x8 * i, 0, 32, 0x0⟩
def WHL_ECTL_OFFSET (i : Nat) : Fld := ⟨0x9044 + 0x8 * i, 0, 24, 0x0⟩
def WHL_ECTL_MODE (i : Nat) : Fld := ⟨0x9044 + 0x8 * i, 24, 2, 0x0⟩
def GF_CTRL_EN : Fld := ⟨0x9400, 0, 1, 0x300⟩
def GF_CTRL_OWNER : Fld := ⟨0x9400, 4, 4, 0x300⟩
def GF_CTRL_MEAS_TRIP : Fld := ⟨0x9400, 8, 1, 0x300⟩
def GF_CTRL_ISL_TRIP : Fld := ⟨0x9400, 9, 1, 0x300⟩
def GF_CTRL_TAP_EN : Fld := ⟨0x9400, 10, 1, 0x300⟩
def GF_CTRL_TAP_NOW : Fld := ⟨0x9400, 11, 1, 0x300⟩
def GF_CTRL_TRIP_CLR : Fld := ⟨0x9400, 12, 1, 0x300⟩
def GF_CTRL_ISL_CLR : Fld := ⟨0x9400, 13, 1, 0x300⟩
def GF_CTRL_TEST_EN : Fld := ⟨0x9400, 14, 4, 0x300⟩
def GF_STATUS_ACTION : Fld := ⟨0x9404, 0, 2, 0x200⟩
def GF_STATUS_TRIPPED : Fld := ⟨0x9404, 2, 1, 0x200⟩
def GF_STATUS_ISLANDED : Fld := ⟨0x9404, 3, 1, 0x200⟩
def GF_STATUS_ISL_TEST : Fld := ⟨0x9404, 4, 4, 0x200⟩
def GF_STATUS_EST : Fld := ⟨0x9404, 8, 2, 0x200⟩
def GF_STATUS_TAP_BUSY : Fld := ⟨0x9404, 10, 1, 0x200⟩
def GF_STATUS_TRIP_CNT : Fld := ⟨0x9404, 16, 8, 0x200⟩
def GF_STATUS_TAP_ABN_CNT : Fld := ⟨0x9404, 24, 8, 0x200⟩
def GF_MEAS_MEAS_AGE : Fld := ⟨0x9408, 0, 16, 0xa⟩
def GF_MEAS_AGE_NOW : Fld := ⟨0x9408, 16, 16, 0xa⟩
def GF_DRIFT_DRIFT_K : Fld := ⟨0x940c, 0, 16, 0x0⟩
def GF_DRIFT_DRIFT_MAX : Fld := ⟨0x940c, 16, 16, 0x0⟩
def GF_VHYS_V_HYS : Fld := ⟨0x9410, 0, 32, 0x51eb8⟩
def GF_FHYS_F_HYS : Fld := ⟨0x9414, 0, 24, 0x0⟩
def GF_ROCOF_ROCOF_W : Fld := ⟨0x9418, 0, 12, 0xffff33e8⟩
def GF_ROCOF_ROCOF_K : Fld := ⟨0x9418, 12, 4, 0xffff33e8⟩
def GF_ROCOF_ROCOF_LIM : Fld := ⟨0x9418, 16, 16, 0xffff33e8⟩
def GF_VS_VS_LIM : Fld := ⟨0x941c, 0, 16, 0xffff⟩
def RTV_LVL_LVL (i : Nat) : Fld := ⟨0x9420 + 0x8 * i, 0, 32, 0x0⟩
def RTV_CFG_T (i : Nat) : Fld := ⟨0x9424 + 0x8 * i, 0, 24, 0x0⟩
def RTV_CFG_ACT (i : Nat) : Fld := ⟨0x9424 + 0x8 * i, 24, 2, 0x0⟩
def RTV_CFG_SIDE (i : Nat) : Fld := ⟨0x9424 + 0x8 * i, 26, 1, 0x0⟩
def RTF_CFG_T (i : Nat) : Fld := ⟨0x9464 + 0x8 * i, 0, 24, 0x0⟩
def RTF_CFG_ACT (i : Nat) : Fld := ⟨0x9464 + 0x8 * i, 24, 2, 0x0⟩
def RTF_CFG_SIDE (i : Nat) : Fld := ⟨0x9464 + 0x8 * i, 26, 1, 0x0⟩
def RTF_LVL_LVL (i : Nat) : Fld := ⟨0x9460 + 0x8 * i, 0, 24, 0x0⟩
def GF_VWLO_VW_LO : Fld := ⟨0x94a0, 0, 32, 0x0⟩
def GF_VWHI_VW_HI : Fld := ⟨0x94a4, 0, 32, 0xffffffff⟩
def GF_FWLO_FW_LO : Fld := ⟨0x94a8, 0, 24, 0x0⟩
def GF_FWHI_FW_HI : Fld := ⟨0x94ac, 0, 24, 0xffffff⟩
def GF_WINT_WIN_T : Fld := ⟨0x94b0, 0, 16, 0x1⟩
def GF_TAP_TAP_LEN_M1 : Fld := ⟨0x94b4, 0, 4, 0x23⟩
def GF_TAP_TAP_SETTLE : Fld := ⟨0x94b4, 4, 4, 0x23⟩
def GF_TAP_TAP_INT : Fld := ⟨0x94b4, 8, 16, 0x23⟩
def GF_TAPAMP_TAPAMP : Fld := ⟨0x94b8, 0, 32, 0x0⟩
def GF_REST_V_REST_V : Fld := ⟨0x94bc, 0, 32, 0x0⟩
def GF_REST_I_REST_I : Fld := ⟨0x94c0, 0, 32, 0x0⟩
def GF_DI_MIN_DI_MIN : Fld := ⟨0x94c4, 0, 32, 0x0⟩
def GF_ZI_LIM_ZI_LIM : Fld := ⟨0x94c8, 0, 32, 0x0⟩
def GF_ZFACT_ZFACT : Fld := ⟨0x94cc, 0, 32, 0x0⟩
def GF_EFACT_EFACT : Fld := ⟨0x94d0, 0, 32, 0x0⟩
def GF_STARVE_STARVE_T : Fld := ⟨0x94d4, 0, 16, 0xbb80064⟩
def GF_STARVE_STALE_T : Fld := ⟨0x94d4, 16, 16, 0xbb80064⟩
def GF_ZEST_Z : Fld := ⟨0x94d8, 0, 32, 0x0⟩
def GF_EEST_E : Fld := ⟨0x94dc, 0, 32, 0x0⟩
def MP_CTRL_EN (i : Nat) : Fld := ⟨0x9500 + 0x20 * i, 0, 1, 0x206400⟩
def MP_CTRL_ALG (i : Nat) : Fld := ⟨0x9500 + 0x20 * i, 1, 1, 0x206400⟩
def MP_CTRL_OWNER (i : Nat) : Fld := ⟨0x9500 + 0x20 * i, 4, 4, 0x206400⟩
def MP_CTRL_MSTEP_T (i : Nat) : Fld := ⟨0x9500 + 0x20 * i, 8, 12, 0x206400⟩
def MP_CTRL_CURTAIL (i : Nat) : Fld := ⟨0x9500 + 0x20 * i, 20, 1, 0x206400⟩
def MP_CTRL_DIR (i : Nat) : Fld := ⟨0x9500 + 0x20 * i, 21, 1, 0x206400⟩
def MP_STEP_STEP (i : Nat) : Fld := ⟨0x9504 + 0x20 * i, 0, 32, 0x147ae⟩
def MP_VMIN_VMIN (i : Nat) : Fld := ⟨0x9508 + 0x20 * i, 0, 32, 0x0⟩
def MP_VMAX_VMAX (i : Nat) : Fld := ⟨0x950c + 0x20 * i, 0, 32, 0x1000000⟩
def MP_VSTART_VSTART (i : Nat) : Fld := ⟨0x9510 + 0x20 * i, 0, 32, 0xc00000⟩
def MP_TOL_TOL (i : Nat) : Fld := ⟨0x9514 + 0x20 * i, 0, 32, 0x4189⟩
def MP_VREF_VREF (i : Nat) : Fld := ⟨0x9518 + 0x20 * i, 0, 32, 0x0⟩
def MP_SKIP_SKIP_CNT (i : Nat) : Fld := ⟨0x951c + 0x20 * i, 0, 16, 0x0⟩
def REF_CTRL_LEAD (e : Nat) : Fld := ⟨0x800000 + 0x10000 * e + 0x2e00, 0, 24, 0x0⟩
def REF_CTRL_DRIFT (e : Nat) : Fld := ⟨0x800000 + 0x10000 * e + 0x2e00, 24, 1, 0x0⟩
def MTR_CTRL_EN : Fld := ⟨0x9800, 0, 1, 0xa⟩
def MTR_CTRL_SYNC : Fld := ⟨0x9800, 1, 1, 0xa⟩
def MTR_CTRL_NF : Fld := ⟨0x9800, 2, 2, 0xa⟩
def MTR_CTRL_CLR : Fld := ⟨0x9800, 4, 1, 0xa⟩
def M_WAIT_WAIT : Fld := ⟨0x9804, 0, 24, 0x61a80⟩
def M_SPAN_SPAN : Fld := ⟨0x9808, 0, 24, 0x13d620⟩
def M_FREE_FREE_T : Fld := ⟨0x980c, 0, 24, 0xee6b3⟩
def MIN_TAG_TAG (i : Nat) : Fld := ⟨0x9840 + 0x10 * i, 0, 16, 0x0⟩
def MIN_TAG_EN (i : Nat) : Fld := ⟨0x9840 + 0x10 * i, 16, 1, 0x0⟩
def MIN_GAIN_GAIN (i : Nat) : Fld := ⟨0x9844 + 0x10 * i, 0, 32, 0x1000000⟩
def MIN_OFS_OFS (i : Nat) : Fld := ⟨0x9848 + 0x10 * i, 0, 32, 0x0⟩
def MIN_PHC_PHC (i : Nat) : Fld := ⟨0x984c + 0x10 * i, 0, 24, 0x0⟩
def MSW_UP_SW_UP : Fld := ⟨0x98e0, 0, 32, 0x0⟩
def MSW_DN_SW_DN : Fld := ⟨0x98e4, 0, 32, 0x0⟩
def MSW_HOLD_SW_HOLD : Fld := ⟨0x98e8, 0, 16, 0x100⟩
def MG_CTRL_EST_EN : Fld := ⟨0x98f0, 0, 1, 0x0⟩
def MG_DI_G_DI : Fld := ⟨0x98f4, 0, 32, 0x0⟩
def MG_REST_G_REST : Fld := ⟨0x98f8, 0, 32, 0x0⟩
def MG_STARVE_M_STARVE_T : Fld := ⟨0x98fc, 0, 16, 0xbb80064⟩
def MG_STARVE_M_STALE_T : Fld := ⟨0x98fc, 16, 16, 0xbb80064⟩
def MG_LIM_G_MIN : Fld := ⟨0x9900, 0, 16, 0x44003c00⟩
def MG_LIM_G_MAX : Fld := ⟨0x9900, 16, 16, 0x44003c00⟩
def LG_FACT_FACT (i : Nat) : Fld := ⟨0x9904 + 0x4 * i, 0, 32, 0x40000000⟩
def LG_G (i : Nat) : Fld := ⟨0x9910 + 0x4 * i, 0, 32, 0x40000000⟩
def MG_STATUS_EST : Fld := ⟨0x991c, 0, 6, 0x2a⟩
def PLS_CTRL_PLS_SRC : Fld := ⟨0x9920, 0, 4, 0x640020⟩
def PLS_CTRL_EN : Fld := ⟨0x9920, 4, 1, 0x640020⟩
def PLS_CTRL_POL : Fld := ⟨0x9920, 5, 1, 0x640020⟩
def PLS_CTRL_PULSE_E : Fld := ⟨0x9920, 16, 16, 0x640020⟩
def PLS_W_PLS_W : Fld := ⟨0x9924, 0, 16, 0x64⟩
def PLS_STATUS_PLS_PEND : Fld := ⟨0x9928, 0, 16, 0x0⟩
def PLS_STATUS_PLS_CREDIT : Fld := ⟨0x9928, 16, 16, 0x0⟩
def RES_LIM_RES_LIM : Fld := ⟨0x992c, 0, 32, 0xffffffff⟩
def MTR_STATUS_MODE : Fld := ⟨0x9930, 0, 2, 0x0⟩
def MTR_STATUS_LIVE : Fld := ⟨0x9930, 2, 1, 0x0⟩
def MTR_STATUS_RANGE_L : Fld := ⟨0x9930, 3, 3, 0x0⟩
def MTR_STATUS_RESIDUAL : Fld := ⟨0x9930, 6, 1, 0x0⟩
def MTR_CNT0_GAP_FRAMES : Fld := ⟨0x9934, 0, 32, 0x0⟩
def MTR_CNT1_FUND_DROP : Fld := ⟨0x9938, 0, 16, 0x0⟩
def MTR_CNT1_QSKIP_CNT : Fld := ⟨0x9938, 16, 16, 0x0⟩
def MTR_CNT2_GSW_CNT : Fld := ⟨0x993c, 0, 16, 0x0⟩
def MTR_CNT2_EXTRAP_CNT : Fld := ⟨0x993c, 16, 16, 0x0⟩
def MACC_LO_B0 (i : Nat) : Fld := ⟨0x9a00 + 0x10 * i, 0, 32, 0x0⟩
def MACC_MID_B32 (i : Nat) : Fld := ⟨0x9a04 + 0x10 * i, 0, 32, 0x0⟩
def MACC_HI_B64 (i : Nat) : Fld := ⟨0x9a08 + 0x10 * i, 0, 16, 0x0⟩
def MSNAP_TIME_LO_TIME : Fld := ⟨0x9b00, 0, 32, 0x0⟩
def MSNAP_TIME_HI_TIME : Fld := ⟨0x9b04, 0, 16, 0x0⟩
def BK_CTRL_EN : Fld := ⟨0x9b80, 0, 1, 0xa00⟩
def BK_CTRL_CLR : Fld := ⟨0x9b80, 1, 1, 0xa00⟩
def BK_CTRL_BK_THR : Fld := ⟨0x9b80, 8, 8, 0xa00⟩
def BK_GAIN_L_GAIN_L : Fld := ⟨0x9b84, 0, 32, 0x1000000⟩
def BK_GAIN_N_GAIN_N : Fld := ⟨0x9b88, 0, 32, 0x1000000⟩
def UQ_L_LO_UQ_L : Fld := ⟨0x9b8c, 0, 32, 0x0⟩
def UQ_L_HI_UQ_L : Fld := ⟨0x9b90, 0, 16, 0x0⟩
def UQ_N_LO_UQ_N : Fld := ⟨0x9b94, 0, 32, 0x0⟩
def UQ_N_HI_UQ_N : Fld := ⟨0x9b98, 0, 16, 0x0⟩
def BK_TIME_SECONDS : Fld := ⟨0x9b9c, 0, 32, 0x0⟩
def FAN_CFG_FPER (i : Nat) : Fld := ⟨0x9c00 + 0x10 * i, 0, 16, 0x7fd0fa0⟩
def FAN_CFG_TPR_M1 (i : Nat) : Fld := ⟨0x9c00 + 0x10 * i, 16, 2, 0x7fd0fa0⟩
def FAN_CFG_KICK_D (i : Nat) : Fld := ⟨0x9c00 + 0x10 * i, 18, 8, 0x7fd0fa0⟩
def FAN_CFG_TACH_N_M1 (i : Nat) : Fld := ⟨0x9c00 + 0x10 * i, 26, 2, 0x7fd0fa0⟩
def FAN_TIME_SPIN_T (i : Nat) : Fld := ⟨0x9c04 + 0x10 * i, 0, 8, 0x143264⟩
def FAN_TIME_PAUSE_T (i : Nat) : Fld := ⟨0x9c04 + 0x10 * i, 8, 8, 0x143264⟩
def FAN_TIME_TLOSS_T (i : Nat) : Fld := ⟨0x9c04 + 0x10 * i, 16, 8, 0x143264⟩
def FAN_ILIM_I_LO (i : Nat) : Fld := ⟨0x9c08 + 0x10 * i, 0, 10, 0x3ff0000⟩
def FAN_ILIM_I_STALL (i : Nat) : Fld := ⟨0x9c08 + 0x10 * i, 16, 10, 0x3ff0000⟩
def FAN_STATUS_STATE (i : Nat) : Fld := ⟨0x9c0c + 0x10 * i, 0, 3, 0x0⟩
def FAN_STATUS_KICKS (i : Nat) : Fld := ⟨0x9c0c + 0x10 * i, 3, 2, 0x0⟩
def FAN_STATUS_I_AVG (i : Nat) : Fld := ⟨0x9c0c + 0x10 * i, 5, 10, 0x0⟩
def FAN_STATUS_STALL_CNT (i : Nat) : Fld := ⟨0x9c0c + 0x10 * i, 16, 8, 0x0⟩
def COIL_CFG_PULL_T (i : Nat) : Fld := ⟨0x9c40 + 0x8 * i, 0, 8, 0xff64⟩
def COIL_CFG_HOLD_D (i : Nat) : Fld := ⟨0x9c40 + 0x8 * i, 8, 8, 0xff64⟩
def COIL_CFG_FOFF_SRC (i : Nat) : Fld := ⟨0x9c40 + 0x8 * i, 16, 8, 0xff64⟩
def COIL_CFG_FOFF_EN (i : Nat) : Fld := ⟨0x9c40 + 0x8 * i, 24, 1, 0xff64⟩
def COIL_FB_FB_E (i : Nat) : Fld := ⟨0x9c44 + 0x8 * i, 0, 16, 0xffff⟩
def CLMP_CAP_CLAMP_CAP (i : Nat) : Fld := ⟨0x9c80 + 0x10 * i, 0, 24, 0xffffff⟩
def CLMP_P_CLAMP_P (i : Nat) : Fld := ⟨0x9c84 + 0x10 * i, 0, 16, 0x3e8⟩
def CLMP_STATUS_M (i : Nat) : Fld := ⟨0x9c88 + 0x10 * i, 0, 24, 0x0⟩
def CLMP_STATUS_HS_ON (i : Nat) : Fld := ⟨0x9c88 + 0x10 * i, 24, 1, 0x0⟩
def CLMP_STATUS_DELAYED (i : Nat) : Fld := ⟨0x9c88 + 0x10 * i, 25, 4, 0x0⟩
def CLMP_CNT_DELAY_CNT (i : Nat) : Fld := ⟨0x9c8c + 0x10 * i, 0, 16, 0x0⟩
def COIL_PWM_CPER : Fld := ⟨0x9ca0, 0, 16, 0x641388⟩
def COIL_PWM_HS_LEAD : Fld := ⟨0x9ca0, 16, 16, 0x641388⟩
def DSCH_CTRL_TEN0 : Fld := ⟨0x9cc0, 0, 1, 0x0⟩
def DSCH_CTRL_TEN1 : Fld := ⟨0x9cc0, 1, 1, 0x0⟩
def DSCH_CTRL_DSCH_CLR : Fld := ⟨0x9cc0, 2, 1, 0x0⟩
def DSCH_CTRL_TSRC0 : Fld := ⟨0x9cc0, 8, 8, 0x0⟩
def DSCH_CTRL_TSRC1 : Fld := ⟨0x9cc0, 16, 8, 0x0⟩
def DSCH_CTRL_DONE_CMP : Fld := ⟨0x9cc0, 24, 6, 0x0⟩
def DSCH_PWR_DSCH_PWR : Fld := ⟨0x9cc4, 0, 16, 0x14ffff⟩
def DSCH_PWR_K : Fld := ⟨0x9cc4, 16, 5, 0x14ffff⟩
def DSCH_CAP_DSCH_CAP : Fld := ⟨0x9cc8, 0, 16, 0x0⟩
def DSCH_LEAK_DSCH_LEAK : Fld := ⟨0x9ccc, 0, 16, 0x640000⟩
def DSCH_LEAK_DSCH_T : Fld := ⟨0x9ccc, 16, 16, 0x640000⟩
def DSCH_FEED_FEED : Fld := ⟨0x9cd0, 0, 16, 0x0⟩
def DSCH_FEED_NOTIFY : Fld := ⟨0x9cd0, 16, 8, 0x0⟩
def DSCH_STATUS_ON : Fld := ⟨0x9cd4, 0, 1, 0x0⟩
def DSCH_STATUS_CUT : Fld := ⟨0x9cd4, 1, 1, 0x0⟩
def DSCH_STATUS_DONE : Fld := ⟨0x9cd4, 2, 1, 0x0⟩
def DSCH_STATUS_FAIL : Fld := ⟨0x9cd4, 3, 1, 0x0⟩
def DSCH_STATUS_TRIG : Fld := ⟨0x9cd4, 4, 1, 0x0⟩
def DSCH_STATUS_HV_DISC : Fld := ⟨0x9cd4, 5, 1, 0x0⟩
def DSCH_STATUS_D : Fld := ⟨0x9cd4, 8, 16, 0x0⟩
def DSCH_CNT_CUT_CNT : Fld := ⟨0x9cd8, 0, 8, 0x0⟩
def DSCH_CNT_FAIL_CNT : Fld := ⟨0x9cd8, 8, 8, 0x0⟩
def SUP_STATUS_HOLD : Fld := ⟨0xa000, 0, 1, 0x0⟩
def SUP_STATUS_LOW : Fld := ⟨0xa000, 1, 4, 0x0⟩
def SUP_STATUS_VBAT_OK : Fld := ⟨0xa000, 5, 1, 0x0⟩
def SUP_STATUS_VBAT_LOST : Fld := ⟨0xa000, 6, 1, 0x0⟩
def SUP_STATUS_CLKMON : Fld := ⟨0xa000, 7, 1, 0x0⟩
def SUP_STATUS_VBAT_LOST_CNT : Fld := ⟨0xa000, 8, 8, 0x0⟩
def SUP_STATUS_HOLD_CNT : Fld := ⟨0xa000, 16, 16, 0x0⟩
def RST_CAUSE_POR : Fld := ⟨0xa004, 0, 1, 0x20⟩
def RST_CAUSE_SUPPLY : Fld := ⟨0xa004, 1, 1, 0x20⟩
def RST_CAUSE_NRST : Fld := ⟨0xa004, 2, 1, 0x20⟩
def RST_CAUSE_DWD : Fld := ⟨0xa004, 3, 1, 0x20⟩
def RST_CAUSE_RESET_STUCK : Fld := ⟨0xa004, 4, 1, 0x20⟩
def RST_CAUSE_BKUP_POR : Fld := ⟨0xa004, 5, 1, 0x20⟩
def NRST_HELD_SECONDS : Fld := ⟨0xa008, 0, 16, 0x0⟩
def VBAT_CTRL_CHG_EN : Fld := ⟨0xa00c, 0, 1, 0x0⟩
def VBAT_CTRL_TEST_EN : Fld := ⟨0xa00c, 1, 1, 0x0⟩
def DWD_CTRL_EN : Fld := ⟨0xa010, 0, 1, 0x4⟩
def DWD_CTRL_CLK : Fld := ⟨0xa010, 1, 1, 0x4⟩
def DWD_CTRL_SRC : Fld := ⟨0xa010, 2, 2, 0x4⟩
def DWD_CTRL_RST : Fld := ⟨0xa010, 4, 1, 0x4⟩
def DWD_OPEN_OPEN : Fld := ⟨0xa014, 0, 24, 0x1⟩
def DWD_CLOSE_CLOSE : Fld := ⟨0xa018, 0, 24, 0xf4240⟩
def DWD_KEY_KEY : Fld := ⟨0xa01c, 0, 32, 0x0⟩
def DWD_STATUS_T : Fld := ⟨0xa020, 0, 24, 0x0⟩
def DWD_STATUS_LAST : Fld := ⟨0xa020, 24, 3, 0x0⟩
def DWD_STATUS_FAULT : Fld := ⟨0xa020, 27, 1, 0x0⟩
def DWD_CNT_DWD_FAULT_CNT : Fld := ⟨0xa024, 0, 8, 0x0⟩
def EWD_CTRL_EN (i : Nat) : Fld := ⟨0xa040 + 0x10 * i, 0, 1, 0x0⟩
def EWD_CTRL_CLK (i : Nat) : Fld := ⟨0xa040 + 0x10 * i, 1, 1, 0x0⟩
def EWD_CTRL_LAST (i : Nat) : Fld := ⟨0xa040 + 0x10 * i, 8, 3, 0x0⟩
def EWD_OPEN_OPEN (i : Nat) : Fld := ⟨0xa044 + 0x10 * i, 0, 24, 0x1⟩
def EWD_CLOSE_CLOSE (i : Nat) : Fld := ⟨0xa048 + 0x10 * i, 0, 24, 0xf4240⟩
def EWD_STATUS_T (i : Nat) : Fld := ⟨0xa04c + 0x10 * i, 0, 24, 0x0⟩
def EWD_STATUS_FAULT_CNT (i : Nat) : Fld := ⟨0xa04c + 0x10 * i, 24, 8, 0x0⟩
def SAFE_CTRL_COILS : Fld := ⟨0xa0c0, 0, 1, 0x1⟩
def SAFE_CTRL_DSCH : Fld := ⟨0xa0c0, 1, 1, 0x1⟩
def SAFE_STATUS_SAFE_STATE : Fld := ⟨0xa0c4, 0, 1, 0x3⟩
def SAFE_STATUS_CAUSE : Fld := ⟨0xa0c4, 1, 6, 0x3⟩
def SAFE_STATUS_KILL_IN : Fld := ⟨0xa0c4, 7, 1, 0x3⟩
def SAFE_STATUS_KILL_CNT : Fld := ⟨0xa0c4, 8, 8, 0x3⟩
def SAFE_CLR_CLR : Fld := ⟨0xa0c8, 0, 1, 0x0⟩
def SP_LOCK_LOCK : Fld := ⟨0xa0cc, 0, 1, 0x0⟩
def SP_LOCK_LOCKED : Fld := ⟨0xa0cc, 1, 1, 0x0⟩
def KEY_DATA_DIGEST (i : Nat) : Fld := ⟨0xa100 + 0x4 * i, 0, 32, 0x0⟩
def KEY_CTRL_SLOT : Fld := ⟨0xa120, 0, 2, 0x0⟩
def KEY_CTRL_PROG : Fld := ⟨0xa120, 2, 1, 0x0⟩
def KEY_CTRL_REVOKE : Fld := ⟨0xa120, 3, 1, 0x0⟩
def KEY_STATUS_PROV : Fld := ⟨0xa124, 0, 4, 0x0⟩
def KEY_STATUS_REVOKED : Fld := ⟨0xa124, 4, 4, 0x0⟩
def KEY_STATUS_BUSY : Fld := ⟨0xa124, 8, 1, 0x0⟩
def KEY_STATUS_ERR : Fld := ⟨0xa124, 9, 1, 0x0⟩
def DBG_OPEN : Fld := ⟨0xa130, 0, 1, 0x0⟩
def DBG_LOCKED : Fld := ⟨0xa130, 1, 1, 0x0⟩
def DBG_BLOW : Fld := ⟨0xa130, 2, 1, 0x0⟩
def DBG_OPEN_ST : Fld := ⟨0xa130, 3, 1, 0x0⟩
def BOOT_STATUS_DONE : Fld := ⟨0x10, 0, 1, 0x0⟩
def BOOT_STATUS_FUSE_ERR : Fld := ⟨0x10, 1, 1, 0x0⟩
def BOOT_STATUS_SCHED_FAIL : Fld := ⟨0x10, 2, 1, 0x0⟩
def BOOT_STATUS_BIST_FAIL : Fld := ⟨0x10, 8, 8, 0x0⟩
def BRING_CTRL_PRELOAD (e : Nat) : Fld := ⟨0x800000 + 0x10000 * e + 0xf00, 0, 1, 0x0⟩
def BRING_CTRL_PRELOAD_ACT (e : Nat) : Fld := ⟨0x800000 + 0x10000 * e + 0xf00, 1, 1, 0x0⟩
def LOCK_SET_SET : Fld := ⟨0x20, 0, 10, 0x0⟩
def LOCK_STATUS_LOCKED : Fld := ⟨0x24, 0, 10, 0x0⟩
def LOCK_STATUS_SAFETY : Fld := ⟨0x24, 15, 1, 0x0⟩
def WDE_KEY_KEY (e : Nat) : Fld := ⟨0x800000 + 0x10000 * e + 0xe00, 0, 32, 0x0⟩

end R

end Sys2Proof.Machine
end

