-- ==== Sys2Proof/Machine/RegTable.lean ====
section
/-! DEFINITION. The register table: where each set-up register lies, what it holds after reset, which bits each access code
governs, its lock group and its backup-domain bits. -/

namespace Sys2Proof.Machine

/-- One register of the tables, with every instance of it: base address (an offset if `win`), up to two strides and counts,
the reset value, the mask of each access code (`dyn`: RW while PROT is 0, SUP while it is 1), the lock group (16: none;
15: safety, R362), the bits that group holds (R386), those of them that a 1 may still set (R388), and the bits of the backup
domain (R20), and the bits that are not reserved (R16). -/
structure RegRow where
  base : Nat
  win : Bool
  s1 : Nat
  n1 : Nat
  s2 : Nat
  n2 : Nat
  rst : Nat
  rw : Nat
  dyn : Nat
  sup : Nat
  rwl : Nat
  w1c : Nat
  wo : Nat
  group : Nat
  lock : Nat
  up : Nat
  backup : Nat
  known : Nat
deriving DecidableEq, Repr

def regRows0 : List RegRow := [
  ⟨0x0, false, 0x0, 1, 0x0, 1, 0xa6440, 0x0, 0x0, 0x0, 0x0, 0x0, 0x0, 16, 0x0, 0x0, 0x0, 0xffffff⟩,  -- DEV_ID
  ⟨0x4, false, 0x0, 1, 0x0, 1, 0x1a1, 0x0, 0x0, 0x0, 0x0, 0x0, 0x0, 16, 0x0, 0x0, 0x0, 0xffff⟩,  -- DEV_REV
  ⟨0x8, false, 0x0, 1, 0x0, 1, 0x10f740, 0x0, 0x0, 0x0, 0x0, 0x0, 0x0, 16, 0x0, 0x0, 0x0, 0x1fffff⟩,  -- DEV_CAPS
  ⟨0x0, true, 0x0, 1, 0x0, 1, 0x0, 0x0, 0x0, 0x0, 0x0, 0x0, 0x0, 16, 0x0, 0x0, 0x0, 0xf7⟩,  -- EASEL_ID
  ⟨0x1000, false, 0x0, 1, 0x0, 1, 0x4, 0x0, 0x0, 0x8, 0x7, 0x0, 0x0, 0, 0xf, 0x0, 0x0, 0xf⟩,  -- TB_CTRL
  ⟨0x1004, false, 0x0, 1, 0x0, 1, 0x2, 0x0, 0x0, 0x0, 0x0, 0x80, 0x0, 16, 0x0, 0x0, 0x0, 0x7ffff⟩,  -- TB_STATUS
  ⟨0x1008, false, 0x0, 1, 0x0, 1, 0x0, 0x0, 0x0, 0x0, 0x0, 0x0, 0x0, 16, 0x0, 0x0, 0x0, 0xffffffff⟩,  -- TB_TIME_LO
  ⟨0x100c, false, 0x0, 1, 0x0, 1, 0x0, 0x0, 0x0, 0x0, 0x0, 0x0, 0x0, 16, 0x0, 0x0, 0x0, 0xffff⟩,  -- TB_TIME_HI
  ⟨0x1010, false, 0x0, 1, 0x0, 1, 0xffff, 0x0, 0x0, 0x0, 0x0, 0x0, 0x0, 16, 0x0, 0x0, 0x0, 0xfffff⟩,  -- TEMPO
  ⟨0x1014, false, 0x0, 1, 0x0, 1, 0x0, 0xffff, 0x0, 0x0, 0x0, 0x0, 0x0, 16, 0x0, 0x0, 0x0, 0xffff⟩,  -- TEMPO_PEAK
  ⟨0x1018, false, 0x0, 1, 0x0, 1, 0x0, 0xffffff, 0x0, 0x0, 0x0, 0x0, 0x0, 16, 0x0, 0x0, 0x0, 0xffffff⟩,  -- TB_COUNTS
  ⟨0x101c, false, 0x0, 1, 0x0, 1, 0x0, 0x0, 0x0, 0x0, 0x0, 0x0, 0x0, 16, 0x0, 0x0, 0x0, 0x3ffff⟩,  -- FINE_CAL
  ⟨0x100, true, 0x0, 1, 0x0, 1, 0x0, 0x1, 0x0, 0x0, 0x0, 0x0, 0x0, 16, 0x0, 0x0, 0x0, 0x1⟩,  -- DB_CTRL
  ⟨0x104, true, 0x0, 1, 0x0, 1, 0x186a, 0x0, 0x0, 0xffffff, 0x0, 0x0, 0x0, 16, 0x0, 0x0, 0x0, 0xffffff⟩,  -- DB_PERIOD
  ⟨0x108, true, 0x0, 1, 0x0, 1, 0x0, 0xffffffff, 0x0, 0x0, 0x0, 0x0, 0x0, 16, 0x0, 0x0, 0x0, 0xffffffff⟩,  -- DB_START_LO
  ⟨0x10c, true, 0x0, 1, 0x0, 1, 0x0, 0xffff, 0x0, 0x0, 0x0, 0x0, 0x0, 16, 0x0, 0x0, 0x0, 0xffff⟩,  -- DB_START_HI
  ⟨0x110, true, 0x0, 1, 0x0, 1, 0x0, 0x0, 0x0, 0x0, 0x0, 0x0, 0x0, 16, 0x0, 0x0, 0x0, 0xffffffff⟩,  -- DB_COUNT_LO
  ⟨0x114, true, 0x0, 1, 0x0, 1, 0x0, 0x0, 0x0, 0x0, 0x0, 0x0, 0x0, 16, 0x0, 0x0, 0x0, 0xffff⟩,  -- DB_COUNT_HI
  ⟨0x118, true, 0x0, 1, 0x0, 1, 0x0, 0x0, 0x0, 0x0, 0x0, 0x0, 0x0, 16, 0x0, 0x0, 0x0, 0xffffffff⟩,  -- EASEL_TIME_LO
  ⟨0x11c, true, 0x0, 1, 0x0, 1, 0x0, 0x0, 0x0, 0x0, 0x0, 0x0, 0x0, 16, 0x0, 0x0, 0x0, 0xffff⟩,  -- EASEL_TIME_HI
  ⟨0x2000, false, 0x0, 1, 0x0, 1, 0x0, 0x0, 0x0, 0x0, 0x0, 0x0, 0x3, 16, 0x0, 0x0, 0x0, 0x3⟩,  -- IMG_CTRL
  ⟨0x2004, false, 0x0, 1, 0x0, 1, 0x0, 0xffffffff, 0x0, 0x0, 0x0, 0x0, 0x0, 16, 0x0, 0x0, 0x0, 0xffffffff⟩,  -- IMG_SRC_LO
  ⟨0x2008, false, 0x0, 1, 0x0, 1, 0x0, 0xffffffff, 0x0, 0x0, 0x0, 0x0, 0x0, 16, 0x0, 0x0, 0x0, 0xffffffff⟩,  -- IMG_SRC_HI
  ⟨0x200c, false, 0x0, 1, 0x0, 1, 0x0, 0x3fffff, 0x0, 0x0, 0x0, 0x0, 0x0, 16, 0x0, 0x0, 0x0, 0x3fffff⟩  -- IMG_LEN
  ]

def regRows1 : List RegRow := [
  ⟨0x2010, false, 0x0, 1, 0x0, 1, 0x0, 0xffffffff, 0x0, 0x0, 0x0, 0x0, 0x0, 16, 0x0, 0x0, 0x0, 0xffffffff⟩,  -- SWAP_TIME_LO
  ⟨0x2014, false, 0x0, 1, 0x0, 1, 0x0, 0xffff, 0x0, 0x0, 0x0, 0x0, 0x0, 16, 0x0, 0x0, 0x0, 0xffff⟩,  -- SWAP_TIME_HI
  ⟨0x2018, false, 0x0, 1, 0x0, 1, 0x0, 0x0, 0x0, 0x0, 0x0, 0x0, 0x0, 16, 0x0, 0x0, 0x0, 0xff7f⟩,  -- IMG_STATUS
  ⟨0x201c, false, 0x0, 1, 0x0, 1, 0x0, 0x0, 0x0, 0x0, 0x0, 0x0, 0x0, 16, 0x0, 0x0, 0x0, 0xffffffff⟩,  -- IMG_ACTIVE_ID
  ⟨0x2020, false, 0x0, 1, 0x0, 1, 0x0, 0x0, 0x0, 0x0, 0x0, 0x0, 0x0, 16, 0x0, 0x0, 0x0, 0xffffffff⟩,  -- IMG_SHADOW_ID
  ⟨0x200, true, 0x0, 1, 0x0, 1, 0x4000, 0x0, 0x0, 0xff01, 0x0, 0x0, 0x0, 1, 0xff01, 0x0, 0x0, 0xff01⟩,  -- SCHED_ADM
  ⟨0x204, true, 0x0, 1, 0x0, 1, 0x0, 0x0, 0x0, 0x0, 0x0, 0x70, 0x0, 16, 0x0, 0x0, 0x0, 0xff7f⟩,  -- SCHED_STATUS
  ⟨0x208, true, 0x0, 1, 0x0, 1, 0x0, 0xffffffff, 0x0, 0x0, 0x0, 0x0, 0x0, 16, 0x0, 0x0, 0x0, 0xffffffff⟩,  -- SLIP_CNT
  ⟨0x20c, true, 0x0, 1, 0x0, 1, 0x0, 0x0, 0x0, 0x0, 0x0, 0x0, 0x3, 16, 0x0, 0x0, 0x0, 0x3⟩,  -- LIMP_CTRL
  ⟨0x210, true, 0x0, 1, 0x0, 1, 0x0, 0x0, 0x0, 0x0, 0x0, 0x0, 0x0, 16, 0x0, 0x0, 0x0, 0xffffff⟩,  -- SLACK_LAST
  ⟨0x214, true, 0x0, 1, 0x0, 1, 0xffffff, 0xffffff, 0x0, 0x0, 0x0, 0x0, 0x0, 16, 0x0, 0x0, 0x0, 0xffffff⟩,  -- SLACK_MIN
  ⟨0x300, true, 0x0, 1, 0x0, 1, 0x0, 0x0, 0x0, 0x0, 0x0, 0x701c, 0x0, 16, 0x0, 0x0, 0x0, 0xffff⟩,  -- ENG_STATUS
  ⟨0x304, true, 0x0, 1, 0x0, 1, 0x0, 0xff00, 0x0, 0x0, 0x0, 0x0, 0x1, 16, 0x0, 0x0, 0x0, 0xff01⟩,  -- PLAUS_CTRL
  ⟨0x308, true, 0x0, 1, 0x0, 1, 0x0, 0xffffffff, 0x0, 0x0, 0x0, 0x0, 0x0, 16, 0x0, 0x0, 0x0, 0xffffffff⟩,  -- SCRAPE_CNT
  ⟨0x30c, true, 0x0, 1, 0x0, 1, 0x0, 0xffffffff, 0x0, 0x0, 0x0, 0x0, 0x0, 16, 0x0, 0x0, 0x0, 0xffffffff⟩,  -- SPEC_CNT
  ⟨0x310, true, 0x0, 1, 0x0, 1, 0x0, 0xffffffff, 0x0, 0x0, 0x0, 0x0, 0x0, 16, 0x0, 0x0, 0x0, 0xffffffff⟩,  -- SAT_CNT
  ⟨0x314, true, 0x0, 1, 0x0, 1, 0x0, 0xffffff, 0x0, 0x0, 0x0, 0x0, 0x0, 16, 0x0, 0x0, 0x0, 0xffffff⟩,  -- PLAUS_CNT
  ⟨0x400, true, 0x10, 64, 0x0, 1, 0x0, 0xffffffff, 0x0, 0x0, 0x0, 0x0, 0x0, 16, 0x0, 0x0, 0x0, 0xffffffff⟩,  -- PLB_LO
  ⟨0x404, true, 0x10, 64, 0x0, 1, 0x0, 0xff, 0x0, 0x0, 0x0, 0x0, 0x0, 16, 0x0, 0x0, 0x0, 0xff⟩,  -- PLB_HI
  ⟨0x408, true, 0x10, 64, 0x0, 1, 0x0, 0x1f, 0x0, 0x0, 0x0, 0x0, 0x0, 16, 0x0, 0x0, 0x0, 0xff01f⟩,  -- PCTL
  ⟨0x3000, false, 0x4, 8, 0x0, 1, 0x0, 0x0, 0x0, 0xffffffff, 0x0, 0x0, 0x0, 2, 0xffffffff, 0x0, 0x0, 0xffffffff⟩,  -- OWN_LEG
  ⟨0x3020, false, 0x4, 8, 0x0, 1, 0x0, 0x0, 0x0, 0xffffffff, 0x0, 0x0, 0x0, 2, 0xffffffff, 0x0, 0x0, 0xffffffff⟩,  -- OWN_CMP
  ⟨0x3040, false, 0x4, 6, 0x0, 1, 0x0, 0x0, 0x0, 0xffffffff, 0x0, 0x0, 0x0, 2, 0xffffffff, 0x0, 0x0, 0xffffffff⟩,  -- OWN_AIN
  ⟨0x3060, false, 0x4, 8, 0x0, 1, 0x0, 0x0, 0x0, 0xffffffff, 0x0, 0x0, 0x0, 2, 0xffffffff, 0x0, 0x0, 0xffffffff⟩  -- OWN_PODCH
  ]

def regRows2 : List RegRow := [
  ⟨0x3080, false, 0x0, 1, 0x0, 1, 0x0, 0x0, 0x0, 0xffffffff, 0x0, 0x0, 0x0, 2, 0xffffffff, 0x0, 0x0, 0xffffffff⟩,  -- OWN_ADCP
  ⟨0x3084, false, 0x0, 1, 0x0, 1, 0x0, 0x0, 0x0, 0xfffff, 0x0, 0x0, 0x0, 2, 0xfffff, 0x0, 0x0, 0xfffff⟩,  -- OWN_AUX0
  ⟨0x3088, false, 0x0, 1, 0x0, 1, 0x0, 0x0, 0x0, 0xffffffff, 0x0, 0x0, 0x0, 2, 0xffffffff, 0x0, 0x0, 0xffffffff⟩,  -- OWN_AUX1
  ⟨0x308c, false, 0x0, 1, 0x0, 1, 0x0, 0x0, 0x0, 0xffff, 0x0, 0x0, 0x0, 2, 0xffff, 0x0, 0x0, 0xffff⟩,  -- OWN_WHEEL
  ⟨0x3090, false, 0x0, 1, 0x0, 1, 0x0, 0x0, 0x0, 0x0, 0x0, 0x0, 0xff, 2, 0xff, 0x0, 0x0, 0xffff⟩,  -- EASEL_RST
  ⟨0x800, true, 0x0, 1, 0x0, 1, 0x0, 0x0, 0x0, 0xff01, 0x0, 0x0, 0x0, 1, 0xff01, 0x0, 0x0, 0xff01⟩,  -- MEM_CTRL
  ⟨0x804, true, 0x0, 1, 0x0, 1, 0x0, 0x0, 0x0, 0x0, 0x0, 0x0, 0x1, 16, 0x0, 0x0, 0x0, 0x1⟩,  -- ERST_CTRL
  ⟨0x808, true, 0x0, 1, 0x0, 1, 0x0, 0x0, 0x0, 0x0, 0x0, 0x3, 0x0, 16, 0x0, 0x0, 0x0, 0x3ff⟩,  -- MEM_STATUS
  ⟨0x80c, true, 0x0, 1, 0x0, 1, 0x0, 0xffffffff, 0x0, 0x0, 0x0, 0x0, 0x0, 16, 0x0, 0x0, 0x0, 0xffffffff⟩,  -- ECC_CNT
  ⟨0x810, true, 0x0, 1, 0x0, 1, 0x0, 0x0, 0x0, 0x0, 0x0, 0x0, 0x0, 16, 0x0, 0x0, 0x0, 0x7ffff⟩,  -- ECC_ADDR
  ⟨0x814, true, 0x0, 1, 0x0, 1, 0x1000, 0x7fffff1, 0x0, 0x0, 0x0, 0x0, 0x2, 16, 0x0, 0x0, 0x0, 0x7fffff3⟩,  -- BTEST_CTRL
  ⟨0x818, true, 0x0, 1, 0x0, 1, 0x0, 0x0, 0x0, 0x0, 0x0, 0x2000, 0x0, 16, 0x0, 0x0, 0x0, 0x3fff⟩,  -- BTEST_STATUS
  ⟨0x81c, true, 0x0, 1, 0x0, 1, 0x0, 0x0, 0x0, 0x0, 0x0, 0x0, 0x0, 16, 0x0, 0x0, 0x0, 0x7fffff⟩,  -- BTEST_FAIL
  ⟨0x820, true, 0x0, 1, 0x0, 1, 0x0, 0x0, 0x0, 0x0, 0x0, 0x0, 0x0, 16, 0x0, 0x0, 0x0, 0xffff⟩,  -- BTEST_SWEEPS
  ⟨0xa00, true, 0x0, 1, 0x0, 1, 0x0, 0x1, 0x0, 0x0, 0x0, 0x0, 0x0, 16, 0x0, 0x0, 0x0, 0x1⟩,  -- RING_CTRL
  ⟨0xa04, true, 0x0, 1, 0x0, 1, 0x0, 0xffffffff, 0x0, 0x0, 0x0, 0x0, 0x0, 16, 0x0, 0x0, 0x0, 0xffffffff⟩,  -- HCB_OFF
  ⟨0xa08, true, 0x0, 1, 0x0, 1, 0x0, 0xffffffff, 0x0, 0x0, 0x0, 0x0, 0x0, 16, 0x0, 0x0, 0x0, 0xffffffff⟩,  -- CMD_BASE
  ⟨0xa0c, true, 0x0, 1, 0x0, 1, 0x0, 0xffffffff, 0x0, 0x0, 0x0, 0x0, 0x0, 16, 0x0, 0x0, 0x0, 0xffffffff⟩,  -- CPL_BASE
  ⟨0xa10, true, 0x0, 1, 0x0, 1, 0x0, 0xffffffff, 0x0, 0x0, 0x0, 0x0, 0x0, 16, 0x0, 0x0, 0x0, 0xffffffff⟩,  -- EVT_BASE
  ⟨0xa14, true, 0x0, 1, 0x0, 1, 0x0, 0xffffffff, 0x0, 0x0, 0x0, 0x0, 0x0, 16, 0x0, 0x0, 0x0, 0xffffffff⟩,  -- SMP_BASE
  ⟨0xa18, true, 0x0, 1, 0x0, 1, 0x4444, 0xffff, 0x0, 0x0, 0x0, 0x0, 0x0, 16, 0x0, 0x0, 0x0, 0xffff⟩,  -- RING_SIZE
  ⟨0xa1c, true, 0x0, 1, 0x0, 1, 0x0, 0x7fff, 0x0, 0x0, 0x0, 0x0, 0x0, 16, 0x0, 0x0, 0x0, 0x7fff⟩,  -- RING_IRQ
  ⟨0xa20, true, 0x0, 1, 0x0, 1, 0x5, 0x0, 0x0, 0x0, 0x0, 0x1fc, 0x0, 16, 0x0, 0x0, 0x0, 0x3ff⟩,  -- RING_STATUS
  ⟨0xa24, true, 0x0, 1, 0x0, 1, 0x0, 0x0, 0x0, 0x0, 0x0, 0x0, 0x0, 16, 0x0, 0x0, 0x0, 0xffffffff⟩  -- RING_IDX0
  ]

def regRows3 : List RegRow := [
  ⟨0xa28, true, 0x0, 1, 0x0, 1, 0x0, 0x0, 0x0, 0x0, 0x0, 0x0, 0x0, 16, 0x0, 0x0, 0x0, 0xffffffff⟩,  -- RING_IDX1
  ⟨0xa2c, true, 0x0, 1, 0x0, 1, 0x0, 0x0, 0x0, 0x0, 0x0, 0x0, 0x0, 16, 0x0, 0x0, 0x0, 0xffff⟩,  -- DB_SEEN
  ⟨0xa30, true, 0x0, 1, 0x0, 1, 0x0, 0xffffffff, 0x0, 0x0, 0x0, 0x0, 0x0, 16, 0x0, 0x0, 0x0, 0xffffffff⟩,  -- INTAKE_SKIP_CNT
  ⟨0xa34, true, 0x0, 1, 0x0, 1, 0x0, 0xffffffff, 0x0, 0x0, 0x0, 0x0, 0x0, 16, 0x0, 0x0, 0x0, 0xffffffff⟩,  -- EVT_DROP_CNT
  ⟨0xa38, true, 0x0, 1, 0x0, 1, 0x0, 0xffffffff, 0x0, 0x0, 0x0, 0x0, 0x0, 16, 0x0, 0x0, 0x0, 0xffffffff⟩,  -- SMP_DROP_CNT
  ⟨0xa3c, true, 0x0, 1, 0x0, 1, 0x0, 0xffff, 0x0, 0x0, 0x0, 0x0, 0x0, 16, 0x0, 0x0, 0x0, 0xffff⟩,  -- INTAKE_ERR_CNT
  ⟨0x4000, false, 0x8, 8, 0x0, 1, 0x0, 0x0, 0x0, 0xffff001f, 0x0, 0x0, 0x0, 2, 0xffff001f, 0x0, 0x0, 0xffff001f⟩,  -- GRANT_LO
  ⟨0x4004, false, 0x8, 8, 0x0, 1, 0x0, 0x0, 0x0, 0xffffffff, 0x0, 0x0, 0x0, 2, 0xffffffff, 0x0, 0x0, 0xffffffff⟩,  -- GRANT_HI
  ⟨0x4040, false, 0x0, 1, 0x0, 1, 0x0, 0xffffffff, 0x0, 0x0, 0x0, 0x0, 0x0, 16, 0x0, 0x0, 0x0, 0xffffffff⟩,  -- F0_HCB_LO
  ⟨0x4044, false, 0x0, 1, 0x0, 1, 0x0, 0xffffffff, 0x0, 0x0, 0x0, 0x0, 0x0, 16, 0x0, 0x0, 0x0, 0xffffffff⟩,  -- F0_HCB_HI
  ⟨0x4048, false, 0x0, 1, 0x0, 1, 0x0, 0xffffffff, 0x0, 0x0, 0x0, 0x0, 0x0, 16, 0x0, 0x0, 0x0, 0xffffffff⟩,  -- F0_EVT_LO
  ⟨0x404c, false, 0x0, 1, 0x0, 1, 0x0, 0xffffffff, 0x0, 0x0, 0x0, 0x0, 0x0, 16, 0x0, 0x0, 0x0, 0xffffffff⟩,  -- F0_EVT_HI
  ⟨0x4050, false, 0x0, 1, 0x0, 1, 0x40, 0x1ff1, 0x0, 0x0, 0x0, 0x0, 0x0, 16, 0x0, 0x0, 0x0, 0x1ff1⟩,  -- F0_RING_CTRL
  ⟨0x4054, false, 0x0, 1, 0x0, 1, 0x0, 0x0, 0x0, 0x0, 0x0, 0x10000, 0x0, 16, 0x0, 0x0, 0x0, 0x1ffff⟩,  -- F0_RING_STATUS
  ⟨0x4058, false, 0x0, 1, 0x0, 1, 0x0, 0xff00, 0x0, 0x0, 0x0, 0x0, 0x0, 16, 0x0, 0x0, 0x0, 0xff1f⟩,  -- LINK_STATUS
  ⟨0x5000, false, 0x20, 8, 0x0, 1, 0x0, 0x0, 0x0, 0x0, 0x0, 0x0, 0x0, 16, 0x0, 0x0, 0x0, 0x1fff1fff⟩,  -- LDG_IDX
  ⟨0x5004, false, 0x20, 8, 0x0, 1, 0x0, 0x0, 0x0, 0x0, 0x0, 0x0, 0x0, 16, 0x0, 0x0, 0x0, 0x1fff⟩,  -- LDG_RET
  ⟨0x5008, false, 0x20, 8, 0x0, 1, 0x0, 0x0, 0x0, 0x0, 0x0, 0x0, 0x0, 16, 0x0, 0x0, 0x0, 0xffffffff⟩,  -- LDG_LAST_LO
  ⟨0x500c, false, 0x20, 8, 0x0, 1, 0x0, 0x0, 0x0, 0x0, 0x0, 0x0, 0x0, 16, 0x0, 0x0, 0x0, 0xffffffff⟩,  -- LDG_LAST_HI
  ⟨0x5010, false, 0x20, 8, 0x0, 1, 0x0, 0xffffffff, 0x0, 0x0, 0x0, 0x0, 0x0, 16, 0x0, 0x0, 0x0, 0xffffffff⟩,  -- LDG_ECC
  ⟨0x5014, false, 0x20, 8, 0x0, 1, 0x0, 0x0, 0x0, 0x1, 0x0, 0x0, 0x2, 3, 0x1, 0x0, 0x0, 0x3⟩,  -- LDG_CTRL
  ⟨0x5018, false, 0x20, 8, 0x0, 1, 0x0, 0x0, 0x0, 0x0, 0x0, 0x2, 0x0, 16, 0x0, 0x0, 0x0, 0xfff3⟩,  -- LDG_STATUS
  ⟨0x5100, false, 0x0, 1, 0x0, 1, 0x0, 0x70fff, 0x0, 0x0, 0x0, 0x0, 0x0, 16, 0x0, 0x0, 0x0, 0x70fff⟩,  -- LDG_SEL
  ⟨0x5104, false, 0x4, 20, 0x0, 1, 0x0, 0x0, 0x0, 0x0, 0x0, 0x0, 0x0, 16, 0x0, 0x0, 0x0, 0xffffffff⟩  -- LDG_DATA
  ]

def regRows4 : List RegRow := [
  ⟨0x5200, false, 0x20, 8, 0x0, 1, 0x0, 0x0, 0x0, 0x0, 0x0, 0x3, 0x0, 16, 0x0, 0x0, 0x1fffff03, 0x1fffff03⟩,  -- CK_INFO
  ⟨0x5204, false, 0x20, 8, 0x0, 1, 0x0, 0x0, 0x0, 0x0, 0x0, 0x0, 0x0, 16, 0x0, 0x0, 0xffffffff, 0xffffffff⟩,  -- CK_LAST_LO
  ⟨0x5208, false, 0x20, 8, 0x0, 1, 0x0, 0x0, 0x0, 0x0, 0x0, 0x0, 0x0, 16, 0x0, 0x0, 0xffffffff, 0xffffffff⟩,  -- CK_LAST_HI
  ⟨0x520c, false, 0x20, 8, 0x0, 1, 0x0, 0x0, 0x0, 0x0, 0x0, 0x0, 0x0, 16, 0x0, 0x0, 0xffffffff, 0xffffffff⟩,  -- CK_PEND
  ⟨0x5210, false, 0x20, 8, 0x0, 1, 0x0, 0x0, 0x0, 0x0, 0x0, 0x0, 0x0, 16, 0x0, 0x0, 0xffffffff, 0xffffffff⟩,  -- CK_TIME_LO
  ⟨0x5214, false, 0x20, 8, 0x0, 1, 0x0, 0x0, 0x0, 0x0, 0x0, 0x0, 0x0, 16, 0x0, 0x0, 0xffffffff, 0xffffffff⟩,  -- CK_TIME_HI
  ⟨0xc00, true, 0x0, 1, 0x0, 1, 0x0, 0x0, 0x0, 0x0, 0x0, 0x0, 0x1, 16, 0x0, 0x0, 0x0, 0x1⟩,  -- LDG_ABORT
  ⟨0x6000, false, 0x100, 8, 0x0, 1, 0x8, 0xff1, 0x0, 0x0, 0x0, 0x0, 0x2, 16, 0x0, 0x0, 0x0, 0xfffff⟩,  -- ADC_PCTRL
  ⟨0x6004, false, 0x100, 8, 0x4, 4, 0x0, 0x7fffff, 0x0, 0x0, 0x0, 0x0, 0x0, 16, 0x0, 0x0, 0x0, 0x7fffff⟩,  -- ADC_SEQ
  ⟨0x6014, false, 0x100, 8, 0x4, 4, 0x0, 0xffffff, 0x0, 0x0, 0x0, 0x0, 0x0, 16, 0x0, 0x0, 0x0, 0xffffff⟩,  -- ADC_TOFS
  ⟨0x6024, false, 0x100, 8, 0x4, 4, 0x0, 0xffffffff, 0x0, 0x0, 0x0, 0x0, 0x0, 16, 0x0, 0x0, 0x0, 0xffffffff⟩,  -- ADC_ANG
  ⟨0x6040, false, 0x100, 8, 0x4, 32, 0x0, 0xfffff, 0x0, 0x0, 0x0, 0x0, 0x0, 16, 0x0, 0x0, 0x0, 0xfffff⟩,  -- STEP
  ⟨0x60c0, false, 0x100, 8, 0x0, 1, 0x40000000, 0xffffffff, 0x0, 0x0, 0x0, 0x0, 0x0, 16, 0x0, 0x0, 0x0, 0xffffffff⟩,  -- CAL_A
  ⟨0x60c4, false, 0x100, 8, 0x0, 1, 0x40000000, 0xffffffff, 0x0, 0x0, 0x0, 0x0, 0x0, 16, 0x0, 0x0, 0x0, 0xffffffff⟩,  -- CAL_B
  ⟨0x7000, false, 0x10, 64, 0x0, 1, 0x0, 0xf, 0x0, 0x0, 0x0, 0x0, 0x0, 16, 0x0, 0x0, 0x0, 0xf⟩,  -- POD_MRG
  ⟨0x7004, false, 0x10, 64, 0x0, 1, 0x0, 0xffffff, 0x0, 0x0, 0x0, 0x0, 0x0, 16, 0x0, 0x0, 0x0, 0xffffff⟩,  -- POD_PICK
  ⟨0x7008, false, 0x10, 64, 0x0, 1, 0x0, 0x0, 0x0, 0x0, 0x0, 0x0, 0x0, 16, 0x0, 0x0, 0x0, 0xffffff⟩,  -- POD_PGD
  ⟨0xd00, true, 0x0, 1, 0x0, 1, 0x0, 0x0, 0x0, 0x0, 0x0, 0x700, 0x0, 16, 0x0, 0x0, 0x0, 0x7ff⟩,  -- Q_STATUS
  ⟨0xd04, true, 0x0, 1, 0x0, 1, 0x0, 0xffffffff, 0x0, 0x0, 0x0, 0x0, 0x0, 16, 0x0, 0x0, 0x0, 0xffffffff⟩,  -- QOVR_CNT
  ⟨0xd08, true, 0x0, 1, 0x0, 1, 0x0, 0xffffffff, 0x0, 0x0, 0x0, 0x0, 0x0, 16, 0x0, 0x0, 0x0, 0xffffffff⟩,  -- TRIG_DROP_CNT
  ⟨0xd0c, true, 0x0, 1, 0x0, 1, 0x0, 0xff, 0x0, 0x0, 0x0, 0x0, 0x0, 16, 0x0, 0x0, 0x0, 0xff⟩,  -- Q_PEAK
  ⟨0x7800, false, 0x80, 16, 0x0, 1, 0x41e34, 0x0, 0x0, 0xfc0fd, 0x3f00, 0x0, 0x2, 4, 0xffffd, 0x1, 0x0, 0xfffff⟩,  -- SL_CTRL
  ⟨0x7804, false, 0x80, 16, 0x0, 1, 0x7800, 0x0, 0x0, 0x0, 0xffff, 0x0, 0x0, 4, 0xffff, 0x0, 0x0, 0xffff⟩,  -- SL_CAP
  ⟨0x7808, false, 0x80, 16, 0x0, 1, 0x9b8c, 0x0, 0x0, 0xffff, 0x0, 0x0, 0x0, 4, 0xffff, 0x0, 0x0, 0xffff⟩  -- SL_PCTL
  ]

def regRows5 : List RegRow := [
  ⟨0x780c, false, 0x80, 16, 0x0, 1, 0x0, 0x0, 0x0, 0x0, 0x0, 0x40000, 0x0, 16, 0x0, 0x0, 0x0, 0x1ffffff⟩,  -- SL_STATUS
  ⟨0x7810, false, 0x80, 16, 0x0, 1, 0x78000000, 0x0, 0x0, 0x0, 0x0, 0x0, 0x0, 16, 0x0, 0x0, 0x0, 0xffffffff⟩,  -- SL_ENERGY
  ⟨0x7814, false, 0x80, 16, 0x0, 1, 0x0, 0xffffffff, 0x0, 0x0, 0x0, 0x0, 0x0, 16, 0x0, 0x0, 0x0, 0xffffffff⟩,  -- SL_COUNTS
  ⟨0x7818, false, 0x80, 16, 0x0, 1, 0x0, 0x0, 0x0, 0xffff00ff, 0x0, 0x800, 0x300, 16, 0x0, 0x0, 0x0, 0xffff0fff⟩,  -- SL_ACC
  ⟨0x781c, false, 0x80, 16, 0x0, 1, 0x0, 0x0, 0x0, 0x0, 0x0, 0x100, 0x0, 16, 0x0, 0x0, 0x0, 0x1ff⟩,  -- SL_ALARM
  ⟨0x7820, false, 0x80, 16, 0x0, 1, 0x640000, 0x0, 0x0, 0xffffffff, 0x0, 0x0, 0x0, 4, 0xffffffff, 0x0, 0x0, 0xffffffff⟩,  -- PCFG_CTRL
  ⟨0x7824, false, 0x80, 16, 0x0, 1, 0x0, 0x0, 0x0, 0xffff, 0x0, 0x0, 0x0, 4, 0xffff, 0x0, 0x0, 0xffff⟩,  -- PCFG_ALM
  ⟨0x7828, false, 0x80, 16, 0x4, 4, 0xffff001e, 0x0, 0x0, 0xffff7fff, 0x0, 0x0, 0x0, 4, 0xffff7fff, 0x0, 0x0, 0xffff7fff⟩,  -- PCFG_CH
  ⟨0x7838, false, 0x80, 16, 0x4, 4, 0x0, 0x0, 0x0, 0xffffff, 0x0, 0x0, 0x0, 4, 0xffffff, 0x0, 0x0, 0xffffff⟩,  -- PHASE
  ⟨0x7848, false, 0x80, 16, 0x4, 4, 0x0, 0x0, 0x0, 0x0, 0x0, 0x0, 0x0, 16, 0x0, 0x0, 0x0, 0xffffff⟩,  -- LAT
  ⟨0x8000, false, 0x20, 64, 0x0, 1, 0x0, 0x3f, 0x0, 0x40, 0x0, 0x0, 0x0, 5, 0x40, 0x0, 0x0, 0x7f⟩,  -- LEG_CFG
  ⟨0x8004, false, 0x20, 64, 0x0, 1, 0x1e848, 0xffffff, 0x0, 0x0, 0x0, 0x0, 0x0, 16, 0x0, 0x0, 0x0, 0xffffff⟩,  -- LEG_PER
  ⟨0x8008, false, 0x20, 64, 0x0, 1, 0x0, 0xffffff, 0x0, 0x0, 0x0, 0x0, 0x0, 16, 0x0, 0x0, 0x0, 0xffffff⟩,  -- LEG_PHS
  ⟨0x800c, false, 0x20, 64, 0x0, 1, 0x0, 0xffff, 0x0, 0x0, 0x0, 0x0, 0x0, 16, 0x0, 0x0, 0x0, 0xffff⟩,  -- LEG_MINP
  ⟨0x8010, false, 0x20, 64, 0x0, 1, 0x4e204e2, 0x0, 0x0, 0xfff0fff, 0x0, 0x0, 0x0, 5, 0xfff0fff, 0x0, 0x0, 0xfff0fff⟩,  -- LEG_DT
  ⟨0x8014, false, 0x20, 64, 0x0, 1, 0x1, 0x0, 0x0, 0xffff0003, 0x0, 0x0, 0x0, 5, 0xffff0003, 0x0, 0x0, 0xffff0003⟩,  -- LEG_FLT
  ⟨0x8018, false, 0x20, 64, 0x0, 1, 0xc1, 0x0, 0x0, 0x0, 0x0, 0x0, 0x0, 16, 0x0, 0x0, 0x0, 0x3ff⟩,  -- LEG_STATUS
  ⟨0x8800, false, 0x10, 64, 0x0, 1, 0xc0, 0x0, 0xfffffff, 0xf0000000, 0x0, 0x0, 0x0, 5, 0xffffffff, 0x0, 0x0, 0xffffffff⟩,  -- CMP_CFG
  ⟨0x8804, false, 0x10, 64, 0x0, 1, 0xfff, 0x0, 0xfff0fff, 0x0, 0x0, 0x0, 0x0, 5, 0xfff0fff, 0x0, 0x0, 0xfff0fff⟩,  -- CMP_THR
  ⟨0x8808, false, 0x10, 64, 0x0, 1, 0x0, 0x0, 0x0, 0xffffffff, 0x0, 0x0, 0x0, 5, 0xffffffff, 0x0, 0x0, 0xffffffff⟩,  -- CMP_GRP
  ⟨0x880c, false, 0x10, 64, 0x0, 1, 0x0, 0x0, 0x0, 0x0, 0x0, 0x0, 0x0, 16, 0x0, 0x0, 0x0, 0x1f⟩,  -- CMP_STATUS
  ⟨0x8c00, false, 0x10, 16, 0x0, 1, 0x0, 0x0, 0x0, 0xffffffff, 0x0, 0x0, 0x0, 5, 0xffffffff, 0x0, 0x0, 0xffffffff⟩,  -- CG_LO
  ⟨0x8c04, false, 0x10, 16, 0x0, 1, 0x0, 0x0, 0x0, 0xffffffff, 0x0, 0x0, 0x0, 5, 0xffffffff, 0x0, 0x0, 0xffffffff⟩,  -- CG_HI
  ⟨0x8c08, false, 0x10, 16, 0x0, 1, 0x0, 0xff00, 0x0, 0x3, 0x0, 0x10, 0x4, 5, 0x1, 0x0, 0x0, 0xff1f⟩  -- CG_CTRL
  ]

def regRows6 : List RegRow := [
  ⟨0x8d00, false, 0x4, 128, 0x0, 1, 0x0, 0x0, 0x0, 0xffff7fff, 0x0, 0x0, 0x0, 5, 0xffff7fff, 0x0, 0x0, 0xffff7fff⟩,  -- ROUTE
  ⟨0x2c00, true, 0x0, 1, 0x0, 1, 0x0, 0x0, 0x0, 0x0, 0x0, 0xffffffff, 0x0, 16, 0x0, 0x0, 0x0, 0xffffffff⟩,  -- RTR_LATCH
  ⟨0x9000, false, 0x0, 1, 0x0, 1, 0x24800, 0x0, 0x0, 0xfffff, 0x0, 0x0, 0x0, 6, 0xfffff, 0x1, 0x0, 0xfffff⟩,  -- WHL_CTRL
  ⟨0x9004, false, 0x0, 1, 0x0, 1, 0x8637c, 0x0, 0x0, 0xffffff, 0x0, 0x0, 0x0, 6, 0xffffff, 0x0, 0x0, 0xffffff⟩,  -- WHL_FNOM
  ⟨0x9008, false, 0x0, 1, 0x0, 1, 0x6b5fd, 0x0, 0x0, 0xffffff, 0x0, 0x0, 0x0, 6, 0xffffff, 0x0, 0x0, 0xffffff⟩,  -- WHL_FMIN
  ⟨0x900c, false, 0x0, 1, 0x0, 1, 0xbbe7a, 0x0, 0x0, 0xffffff, 0x0, 0x0, 0x0, 6, 0xffffff, 0x0, 0x0, 0xffffff⟩,  -- WHL_FMAX
  ⟨0x9010, false, 0x0, 1, 0x0, 1, 0x5b000b6, 0x0, 0x0, 0xffffffff, 0x0, 0x0, 0x0, 6, 0xffffffff, 0x0, 0x0, 0xffffffff⟩,  -- WHL_BND
  ⟨0x9014, false, 0x0, 1, 0x0, 1, 0x100, 0x0, 0x0, 0xffff, 0x0, 0x0, 0x0, 6, 0xffff, 0x0, 0x0, 0xffff⟩,  -- WHL_SLEW
  ⟨0x9018, false, 0x0, 1, 0x0, 1, 0x55555555, 0x0, 0x0, 0xffffffff, 0x0, 0x0, 0x0, 6, 0xffffffff, 0x0, 0x0, 0xffffffff⟩,  -- WHL_LIMP
  ⟨0x901c, false, 0x0, 1, 0x0, 1, 0x100000, 0x0, 0x0, 0xffffff, 0x0, 0x0, 0x0, 6, 0xffffff, 0x0, 0x0, 0xffffff⟩,  -- WHL_LIMP2
  ⟨0x9020, false, 0x0, 1, 0x0, 1, 0x7d0, 0x0, 0x0, 0xffff, 0x0, 0x0, 0x0, 6, 0xffff, 0x0, 0x0, 0xffff⟩,  -- WHL_RAMP
  ⟨0x9024, false, 0x0, 1, 0x0, 1, 0x0, 0xffff00, 0x0, 0x0, 0x0, 0x0, 0x0, 6, 0x0, 0x0, 0x0, 0xfffff07⟩,  -- WHL_STATUS
  ⟨0x9028, false, 0x0, 1, 0x0, 1, 0x0, 0x0, 0x0, 0x0, 0x0, 0x0, 0x0, 6, 0x0, 0x0, 0x0, 0xffffffff⟩,  -- WHL_ANGLE
  ⟨0x902c, false, 0x0, 1, 0x0, 1, 0x0, 0x0, 0x0, 0x0, 0x0, 0x0, 0x0, 6, 0x0, 0x0, 0x0, 0xffffff⟩,  -- WHL_FREQ
  ⟨0x9030, false, 0x0, 1, 0x0, 1, 0x0, 0xffff00, 0x0, 0x0, 0x0, 0x0, 0x0, 6, 0x0, 0x0, 0x0, 0xffff03⟩,  -- WHL_LSTAT
  ⟨0x9040, false, 0x8, 8, 0x0, 1, 0x0, 0x0, 0x0, 0xffffffff, 0x0, 0x0, 0x0, 6, 0xffffffff, 0x0, 0x0, 0xffffffff⟩,  -- WHL_EANG
  ⟨0x9044, false, 0x8, 8, 0x0, 1, 0x0, 0x0, 0x0, 0x3ffffff, 0x0, 0x0, 0x0, 6, 0x3ffffff, 0x0, 0x0, 0x3ffffff⟩,  -- WHL_ECTL
  ⟨0x9400, false, 0x0, 1, 0x0, 1, 0x300, 0x0, 0x0, 0x3c7f1, 0x0, 0x0, 0x3800, 7, 0x3c7f1, 0x1, 0x0, 0x3fff1⟩,  -- GF_CTRL
  ⟨0x9404, false, 0x0, 1, 0x0, 1, 0x200, 0xffff0000, 0x0, 0x0, 0x0, 0x0, 0x0, 7, 0x0, 0x0, 0x0, 0xffff07ff⟩,  -- GF_STATUS
  ⟨0x9408, false, 0x0, 1, 0x0, 1, 0xa, 0x0, 0x0, 0xffff, 0x0, 0x0, 0x0, 7, 0xffff, 0x0, 0x0, 0xffffffff⟩,  -- GF_MEAS
  ⟨0x940c, false, 0x0, 1, 0x0, 1, 0x0, 0x0, 0x0, 0xffffffff, 0x0, 0x0, 0x0, 7, 0xffffffff, 0x0, 0x0, 0xffffffff⟩,  -- GF_DRIFT
  ⟨0x9410, false, 0x0, 1, 0x0, 1, 0x51eb8, 0x0, 0x0, 0xffffffff, 0x0, 0x0, 0x0, 7, 0xffffffff, 0x0, 0x0, 0xffffffff⟩,  -- GF_VHYS
  ⟨0x9414, false, 0x0, 1, 0x0, 1, 0x0, 0x0, 0x0, 0xffffff, 0x0, 0x0, 0x0, 7, 0xffffff, 0x0, 0x0, 0xffffff⟩,  -- GF_FHYS
  ⟨0x9418, false, 0x0, 1, 0x0, 1, 0xffff33e8, 0x0, 0x0, 0xffffffff, 0x0, 0x0, 0x0, 7, 0xffffffff, 0x0, 0x0, 0xffffffff⟩  -- GF_ROCOF
  ]

def regRows7 : List RegRow := [
  ⟨0x941c, false, 0x0, 1, 0x0, 1, 0xffff, 0x0, 0x0, 0xffff, 0x0, 0x0, 0x0, 7, 0xffff, 0x0, 0x0, 0xffff⟩,  -- GF_VS
  ⟨0x9420, false, 0x8, 8, 0x0, 1, 0x0, 0x0, 0x0, 0xffffffff, 0x0, 0x0, 0x0, 7, 0xffffffff, 0x0, 0x0, 0xffffffff⟩,  -- RTV_LVL
  ⟨0x9424, false, 0x8, 8, 0x0, 1, 0x0, 0x0, 0x0, 0x7ffffff, 0x0, 0x0, 0x0, 7, 0x7ffffff, 0x0, 0x0, 0x7ffffff⟩,  -- RTV_CFG
  ⟨0x9464, false, 0x8, 8, 0x0, 1, 0x0, 0x0, 0x0, 0x7ffffff, 0x0, 0x0, 0x0, 7, 0x7ffffff, 0x0, 0x0, 0x7ffffff⟩,  -- RTF_CFG
  ⟨0x9460, false, 0x8, 8, 0x0, 1, 0x0, 0x0, 0x0, 0xffffff, 0x0, 0x0, 0x0, 7, 0xffffff, 0x0, 0x0, 0xffffff⟩,  -- RTF_LVL
  ⟨0x94a0, false, 0x0, 1, 0x0, 1, 0x0, 0x0, 0x0, 0xffffffff, 0x0, 0x0, 0x0, 7, 0xffffffff, 0x0, 0x0, 0xffffffff⟩,  -- GF_VWLO
  ⟨0x94a4, false, 0x0, 1, 0x0, 1, 0xffffffff, 0x0, 0x0, 0xffffffff, 0x0, 0x0, 0x0, 7, 0xffffffff, 0x0, 0x0, 0xffffffff⟩,  -- GF_VWHI
  ⟨0x94a8, false, 0x0, 1, 0x0, 1, 0x0, 0x0, 0x0, 0xffffff, 0x0, 0x0, 0x0, 7, 0xffffff, 0x0, 0x0, 0xffffff⟩,  -- GF_FWLO
  ⟨0x94ac, false, 0x0, 1, 0x0, 1, 0xffffff, 0x0, 0x0, 0xffffff, 0x0, 0x0, 0x0, 7, 0xffffff, 0x0, 0x0, 0xffffff⟩,  -- GF_FWHI
  ⟨0x94b0, false, 0x0, 1, 0x0, 1, 0x1, 0x0, 0x0, 0xffff, 0x0, 0x0, 0x0, 7, 0xffff, 0x0, 0x0, 0xffff⟩,  -- GF_WINT
  ⟨0x94b4, false, 0x0, 1, 0x0, 1, 0x23, 0x0, 0x0, 0xffffff, 0x0, 0x0, 0x0, 7, 0xffffff, 0x0, 0x0, 0xffffff⟩,  -- GF_TAP
  ⟨0x94b8, false, 0x0, 1, 0x0, 1, 0x0, 0x0, 0x0, 0xffffffff, 0x0, 0x0, 0x0, 7, 0xffffffff, 0x0, 0x0, 0xffffffff⟩,  -- GF_TAPAMP
  ⟨0x94bc, false, 0x0, 1, 0x0, 1, 0x0, 0x0, 0x0, 0xffffffff, 0x0, 0x0, 0x0, 7, 0xffffffff, 0x0, 0x0, 0xffffffff⟩,  -- GF_REST_V
  ⟨0x94c0, false, 0x0, 1, 0x0, 1, 0x0, 0x0, 0x0, 0xffffffff, 0x0, 0x0, 0x0, 7, 0xffffffff, 0x0, 0x0, 0xffffffff⟩,  -- GF_REST_I
  ⟨0x94c4, false, 0x0, 1, 0x0, 1, 0x0, 0x0, 0x0, 0xffffffff, 0x0, 0x0, 0x0, 7, 0xffffffff, 0x0, 0x0, 0xffffffff⟩,  -- GF_DI_MIN
  ⟨0x94c8, false, 0x0, 1, 0x0, 1, 0x0, 0x0, 0x0, 0xffffffff, 0x0, 0x0, 0x0, 7, 0xffffffff, 0x0, 0x0, 0xffffffff⟩,  -- GF_ZI_LIM
  ⟨0x94cc, false, 0x0, 1, 0x0, 1, 0x0, 0x0, 0x0, 0xffffffff, 0x0, 0x0, 0x0, 7, 0xffffffff, 0x0, 0x0, 0xffffffff⟩,  -- GF_ZFACT
  ⟨0x94d0, false, 0x0, 1, 0x0, 1, 0x0, 0x0, 0x0, 0xffffffff, 0x0, 0x0, 0x0, 7, 0xffffffff, 0x0, 0x0, 0xffffffff⟩,  -- GF_EFACT
  ⟨0x94d4, false, 0x0, 1, 0x0, 1, 0xbb80064, 0x0, 0x0, 0xffffffff, 0x0, 0x0, 0x0, 7, 0xffffffff, 0x0, 0x0, 0xffffffff⟩,  -- GF_STARVE
  ⟨0x94d8, false, 0x0, 1, 0x0, 1, 0x0, 0x0, 0x0, 0x0, 0x0, 0x0, 0x0, 7, 0x0, 0x0, 0x0, 0xffffffff⟩,  -- GF_ZEST
  ⟨0x94dc, false, 0x0, 1, 0x0, 1, 0x0, 0x0, 0x0, 0x0, 0x0, 0x0, 0x0, 7, 0x0, 0x0, 0x0, 0xffffffff⟩,  -- GF_EEST
  ⟨0x9500, false, 0x20, 8, 0x0, 1, 0x206400, 0x0, 0x0, 0xffff3, 0x0, 0x0, 0x0, 7, 0xffff3, 0x1, 0x0, 0x3ffff3⟩,  -- MP_CTRL
  ⟨0x9504, false, 0x20, 8, 0x0, 1, 0x147ae, 0x0, 0x0, 0xffffffff, 0x0, 0x0, 0x0, 7, 0xffffffff, 0x0, 0x0, 0xffffffff⟩,  -- MP_STEP
  ⟨0x9508, false, 0x20, 8, 0x0, 1, 0x0, 0x0, 0x0, 0xffffffff, 0x0, 0x0, 0x0, 7, 0xffffffff, 0x0, 0x0, 0xffffffff⟩  -- MP_VMIN
  ]

def regRows8 : List RegRow := [
  ⟨0x950c, false, 0x20, 8, 0x0, 1, 0x1000000, 0x0, 0x0, 0xffffffff, 0x0, 0x0, 0x0, 7, 0xffffffff, 0x0, 0x0, 0xffffffff⟩,  -- MP_VMAX
  ⟨0x9510, false, 0x20, 8, 0x0, 1, 0xc00000, 0x0, 0x0, 0xffffffff, 0x0, 0x0, 0x0, 7, 0xffffffff, 0x0, 0x0, 0xffffffff⟩,  -- MP_VSTART
  ⟨0x9514, false, 0x20, 8, 0x0, 1, 0x4189, 0x0, 0x0, 0xffffffff, 0x0, 0x0, 0x0, 7, 0xffffffff, 0x0, 0x0, 0xffffffff⟩,  -- MP_TOL
  ⟨0x9518, false, 0x20, 8, 0x0, 1, 0x0, 0x0, 0x0, 0x0, 0x0, 0x0, 0x0, 7, 0x0, 0x0, 0x0, 0xffffffff⟩,  -- MP_VREF
  ⟨0x951c, false, 0x20, 8, 0x0, 1, 0x0, 0xffff, 0x0, 0x0, 0x0, 0x0, 0x0, 7, 0x0, 0x0, 0x0, 0xffff⟩,  -- MP_SKIP
  ⟨0x2e00, true, 0x0, 1, 0x0, 1, 0x0, 0x1ffffff, 0x0, 0x0, 0x0, 0x0, 0x0, 16, 0x0, 0x0, 0x0, 0x1ffffff⟩,  -- REF_CTRL
  ⟨0x9800, false, 0x0, 1, 0x0, 1, 0xa, 0x0, 0x0, 0x1f, 0x0, 0x0, 0x0, 8, 0x1f, 0x1, 0x0, 0x1f⟩,  -- MTR_CTRL
  ⟨0x9804, false, 0x0, 1, 0x0, 1, 0x61a80, 0x0, 0x0, 0xffffff, 0x0, 0x0, 0x0, 8, 0xffffff, 0x0, 0x0, 0xffffff⟩,  -- M_WAIT
  ⟨0x9808, false, 0x0, 1, 0x0, 1, 0x13d620, 0x0, 0x0, 0xffffff, 0x0, 0x0, 0x0, 8, 0xffffff, 0x0, 0x0, 0xffffff⟩,  -- M_SPAN
  ⟨0x980c, false, 0x0, 1, 0x0, 1, 0xee6b3, 0x0, 0x0, 0xffffff, 0x0, 0x0, 0x0, 8, 0xffffff, 0x0, 0x0, 0xffffff⟩,  -- M_FREE
  ⟨0x9840, false, 0x10, 10, 0x0, 1, 0x0, 0x0, 0x0, 0x1ffff, 0x0, 0x0, 0x0, 8, 0x1ffff, 0x0, 0x0, 0x1ffff⟩,  -- MIN_TAG
  ⟨0x9844, false, 0x10, 10, 0x0, 1, 0x1000000, 0x0, 0x0, 0xffffffff, 0x0, 0x0, 0x0, 8, 0xffffffff, 0x0, 0x0, 0xffffffff⟩,  -- MIN_GAIN
  ⟨0x9848, false, 0x10, 10, 0x0, 1, 0x0, 0x0, 0x0, 0xffffffff, 0x0, 0x0, 0x0, 8, 0xffffffff, 0x0, 0x0, 0xffffffff⟩,  -- MIN_OFS
  ⟨0x984c, false, 0x10, 10, 0x0, 1, 0x0, 0x0, 0x0, 0xffffff, 0x0, 0x0, 0x0, 8, 0xffffff, 0x0, 0x0, 0xffffff⟩,  -- MIN_PHC
  ⟨0x98e0, false, 0x0, 1, 0x0, 1, 0x0, 0x0, 0x0, 0xffffffff, 0x0, 0x0, 0x0, 8, 0xffffffff, 0x0, 0x0, 0xffffffff⟩,  -- MSW_UP
  ⟨0x98e4, false, 0x0, 1, 0x0, 1, 0x0, 0x0, 0x0, 0xffffffff, 0x0, 0x0, 0x0, 8, 0xffffffff, 0x0, 0x0, 0xffffffff⟩,  -- MSW_DN
  ⟨0x98e8, false, 0x0, 1, 0x0, 1, 0x100, 0x0, 0x0, 0xffff, 0x0, 0x0, 0x0, 8, 0xffff, 0x0, 0x0, 0xffff⟩,  -- MSW_HOLD
  ⟨0x98f0, false, 0x0, 1, 0x0, 1, 0x0, 0x0, 0x0, 0x1, 0x0, 0x0, 0x0, 8, 0x1, 0x0, 0x0, 0x1⟩,  -- MG_CTRL
  ⟨0x98f4, false, 0x0, 1, 0x0, 1, 0x0, 0x0, 0x0, 0xffffffff, 0x0, 0x0, 0x0, 8, 0xffffffff, 0x0, 0x0, 0xffffffff⟩,  -- MG_DI
  ⟨0x98f8, false, 0x0, 1, 0x0, 1, 0x0, 0x0, 0x0, 0xffffffff, 0x0, 0x0, 0x0, 8, 0xffffffff, 0x0, 0x0, 0xffffffff⟩,  -- MG_REST
  ⟨0x98fc, false, 0x0, 1, 0x0, 1, 0xbb80064, 0x0, 0x0, 0xffffffff, 0x0, 0x0, 0x0, 8, 0xffffffff, 0x0, 0x0, 0xffffffff⟩,  -- MG_STARVE
  ⟨0x9900, false, 0x0, 1, 0x0, 1, 0x44003c00, 0x0, 0x0, 0xffffffff, 0x0, 0x0, 0x0, 8, 0xffffffff, 0x0, 0x0, 0xffffffff⟩,  -- MG_LIM
  ⟨0x9904, false, 0x4, 3, 0x0, 1, 0x40000000, 0x0, 0x0, 0xffffffff, 0x0, 0x0, 0x0, 8, 0xffffffff, 0x0, 0x0, 0xffffffff⟩,  -- LG_FACT
  ⟨0x9910, false, 0x4, 3, 0x0, 1, 0x40000000, 0x0, 0x0, 0x0, 0x0, 0x0, 0x0, 8, 0x0, 0x0, 0x0, 0xffffffff⟩  -- LG
  ]

def regRows9 : List RegRow := [
  ⟨0x991c, false, 0x0, 1, 0x0, 1, 0x2a, 0x0, 0x0, 0x0, 0x0, 0x0, 0x0, 8, 0x0, 0x0, 0x0, 0x3f⟩,  -- MG_STATUS
  ⟨0x9920, false, 0x0, 1, 0x0, 1, 0x640020, 0x0, 0x0, 0xffff003f, 0x0, 0x0, 0x0, 8, 0xffff003f, 0x10, 0x0, 0xffff003f⟩,  -- PLS_CTRL
  ⟨0x9924, false, 0x0, 1, 0x0, 1, 0x64, 0x0, 0x0, 0xffff, 0x0, 0x0, 0x0, 8, 0xffff, 0x0, 0x0, 0xffff⟩,  -- PLS_W
  ⟨0x9928, false, 0x0, 1, 0x0, 1, 0x0, 0x0, 0x0, 0x0, 0x0, 0x0, 0x0, 8, 0x0, 0x0, 0xffffffff, 0xffffffff⟩,  -- PLS_STATUS
  ⟨0x992c, false, 0x0, 1, 0x0, 1, 0xffffffff, 0x0, 0x0, 0xffffffff, 0x0, 0x0, 0x0, 8, 0xffffffff, 0x0, 0x0, 0xffffffff⟩,  -- RES_LIM
  ⟨0x9930, false, 0x0, 1, 0x0, 1, 0x0, 0x0, 0x0, 0x0, 0x0, 0x0, 0x0, 8, 0x0, 0x0, 0x0, 0x7f⟩,  -- MTR_STATUS
  ⟨0x9934, false, 0x0, 1, 0x0, 1, 0x0, 0xffffffff, 0x0, 0x0, 0x0, 0x0, 0x0, 8, 0x0, 0x0, 0x0, 0xffffffff⟩,  -- MTR_CNT0
  ⟨0x9938, false, 0x0, 1, 0x0, 1, 0x0, 0xffffffff, 0x0, 0x0, 0x0, 0x0, 0x0, 8, 0x0, 0x0, 0x0, 0xffffffff⟩,  -- MTR_CNT1
  ⟨0x993c, false, 0x0, 1, 0x0, 1, 0x0, 0xffffffff, 0x0, 0x0, 0x0, 0x0, 0x0, 8, 0x0, 0x0, 0x0, 0xffffffff⟩,  -- MTR_CNT2
  ⟨0x9a00, false, 0x10, 16, 0x0, 1, 0x0, 0x0, 0x0, 0x0, 0x0, 0x0, 0x0, 8, 0x0, 0x0, 0xffffffff, 0xffffffff⟩,  -- MACC_LO
  ⟨0x9a04, false, 0x10, 16, 0x0, 1, 0x0, 0x0, 0x0, 0x0, 0x0, 0x0, 0x0, 8, 0x0, 0x0, 0xffffffff, 0xffffffff⟩,  -- MACC_MID
  ⟨0x9a08, false, 0x10, 16, 0x0, 1, 0x0, 0x0, 0x0, 0x0, 0x0, 0x0, 0x0, 8, 0x0, 0x0, 0xffff, 0xffff⟩,  -- MACC_HI
  ⟨0x9b00, false, 0x0, 1, 0x0, 1, 0x0, 0x0, 0x0, 0x0, 0x0, 0x0, 0x0, 8, 0x0, 0x0, 0x0, 0xffffffff⟩,  -- MSNAP_TIME_LO
  ⟨0x9b04, false, 0x0, 1, 0x0, 1, 0x0, 0x0, 0x0, 0x0, 0x0, 0x0, 0x0, 8, 0x0, 0x0, 0x0, 0xffff⟩,  -- MSNAP_TIME_HI
  ⟨0x9b80, false, 0x0, 1, 0x0, 1, 0xa00, 0x0, 0x0, 0xff03, 0x0, 0x0, 0x0, 8, 0xff03, 0x1, 0xff03, 0xff03⟩,  -- BK_CTRL
  ⟨0x9b84, false, 0x0, 1, 0x0, 1, 0x1000000, 0x0, 0x0, 0xffffffff, 0x0, 0x0, 0x0, 8, 0xffffffff, 0x0, 0xffffffff, 0xffffffff⟩,  -- BK_GAIN_L
  ⟨0x9b88, false, 0x0, 1, 0x0, 1, 0x1000000, 0x0, 0x0, 0xffffffff, 0x0, 0x0, 0x0, 8, 0xffffffff, 0x0, 0xffffffff, 0xffffffff⟩,  -- BK_GAIN_N
  ⟨0x9b8c, false, 0x0, 1, 0x0, 1, 0x0, 0x0, 0x0, 0x0, 0x0, 0x0, 0x0, 8, 0x0, 0x0, 0xffffffff, 0xffffffff⟩,  -- UQ_L_LO
  ⟨0x9b90, false, 0x0, 1, 0x0, 1, 0x0, 0x0, 0x0, 0x0, 0x0, 0x0, 0x0, 8, 0x0, 0x0, 0xffff, 0xffff⟩,  -- UQ_L_HI
  ⟨0x9b94, false, 0x0, 1, 0x0, 1, 0x0, 0x0, 0x0, 0x0, 0x0, 0x0, 0x0, 8, 0x0, 0x0, 0xffffffff, 0xffffffff⟩,  -- UQ_N_LO
  ⟨0x9b98, false, 0x0, 1, 0x0, 1, 0x0, 0x0, 0x0, 0x0, 0x0, 0x0, 0x0, 8, 0x0, 0x0, 0xffff, 0xffff⟩,  -- UQ_N_HI
  ⟨0x9b9c, false, 0x0, 1, 0x0, 1, 0x0, 0x0, 0x0, 0x0, 0x0, 0x0, 0x0, 8, 0x0, 0x0, 0xffffffff, 0xffffffff⟩,  -- BK_TIME
  ⟨0x9c00, false, 0x10, 4, 0x0, 1, 0x7fd0fa0, 0x0, 0x0, 0xfffffff, 0x0, 0x0, 0x0, 9, 0xfffffff, 0x0, 0x0, 0xfffffff⟩,  -- FAN_CFG
  ⟨0x9c04, false, 0x10, 4, 0x0, 1, 0x143264, 0x0, 0x0, 0xffffff, 0x0, 0x0, 0x0, 9, 0xffffff, 0x0, 0x0, 0xffffff⟩  -- FAN_TIME
  ]

def regRows10 : List RegRow := [
  ⟨0x9c08, false, 0x10, 4, 0x0, 1, 0x3ff0000, 0x0, 0x0, 0x3ff03ff, 0x0, 0x0, 0x0, 9, 0x3ff03ff, 0x0, 0x0, 0x3ff03ff⟩,  -- FAN_ILIM
  ⟨0x9c0c, false, 0x10, 4, 0x0, 1, 0x0, 0xff0000, 0x0, 0x0, 0x0, 0x0, 0x0, 9, 0x0, 0x0, 0x0, 0xff7fff⟩,  -- FAN_STATUS
  ⟨0x9c40, false, 0x8, 8, 0x0, 1, 0xff64, 0x0, 0x0, 0x1ffffff, 0x0, 0x0, 0x0, 9, 0x1ffffff, 0x0, 0x0, 0x1ffffff⟩,  -- COIL_CFG
  ⟨0x9c44, false, 0x8, 8, 0x0, 1, 0xffff, 0x0, 0x0, 0xffff, 0x0, 0x0, 0x0, 9, 0xffff, 0x0, 0x0, 0xffff⟩,  -- COIL_FB
  ⟨0x9c80, false, 0x10, 2, 0x0, 1, 0xffffff, 0x0, 0x0, 0xffffff, 0x0, 0x0, 0x0, 9, 0xffffff, 0x0, 0x0, 0xffffff⟩,  -- CLMP_CAP
  ⟨0x9c84, false, 0x10, 2, 0x0, 1, 0x3e8, 0x0, 0x0, 0xffff, 0x0, 0x0, 0x0, 9, 0xffff, 0x0, 0x0, 0xffff⟩,  -- CLMP_P
  ⟨0x9c88, false, 0x10, 2, 0x0, 1, 0x0, 0x0, 0x0, 0x0, 0x0, 0x0, 0x0, 9, 0x0, 0x0, 0x0, 0x1fffffff⟩,  -- CLMP_STATUS
  ⟨0x9c8c, false, 0x10, 2, 0x0, 1, 0x0, 0xffff, 0x0, 0x0, 0x0, 0x0, 0x0, 9, 0x0, 0x0, 0x0, 0xffff⟩,  -- CLMP_CNT
  ⟨0x9ca0, false, 0x0, 1, 0x0, 1, 0x641388, 0x0, 0x0, 0xffffffff, 0x0, 0x0, 0x0, 9, 0xffffffff, 0x0, 0x0, 0xffffffff⟩,  -- COIL_PWM
  ⟨0x9cc0, false, 0x0, 1, 0x0, 1, 0x0, 0x0, 0x0, 0x3fffff07, 0x0, 0x0, 0x0, 9, 0x3fffff03, 0x0, 0x0, 0x3fffff07⟩,  -- DSCH_CTRL
  ⟨0x9cc4, false, 0x0, 1, 0x0, 1, 0x14ffff, 0x0, 0x0, 0x1fffff, 0x0, 0x0, 0x0, 9, 0x1fffff, 0x0, 0x0, 0x1fffff⟩,  -- DSCH_PWR
  ⟨0x9cc8, false, 0x0, 1, 0x0, 1, 0x0, 0x0, 0x0, 0xffff, 0x0, 0x0, 0x0, 9, 0xffff, 0x0, 0x0, 0xffff⟩,  -- DSCH_CAP
  ⟨0x9ccc, false, 0x0, 1, 0x0, 1, 0x640000, 0x0, 0x0, 0xffffffff, 0x0, 0x0, 0x0, 9, 0xffffffff, 0x0, 0x0, 0xffffffff⟩,  -- DSCH_LEAK
  ⟨0x9cd0, false, 0x0, 1, 0x0, 1, 0x0, 0x0, 0x0, 0xffffff, 0x0, 0x0, 0x0, 9, 0xffffff, 0x0, 0x0, 0xffffff⟩,  -- DSCH_FEED
  ⟨0x9cd4, false, 0x0, 1, 0x0, 1, 0x0, 0x0, 0x0, 0x0, 0x0, 0x0, 0x0, 9, 0x0, 0x0, 0x0, 0xffff3f⟩,  -- DSCH_STATUS
  ⟨0x9cd8, false, 0x0, 1, 0x0, 1, 0x0, 0xffff, 0x0, 0x0, 0x0, 0x0, 0x0, 9, 0x0, 0x0, 0x0, 0xffff⟩,  -- DSCH_CNT
  ⟨0xa000, false, 0x0, 1, 0x0, 1, 0x0, 0xffffff00, 0x0, 0x0, 0x0, 0x40, 0x0, 16, 0x0, 0x0, 0x0, 0xffffffff⟩,  -- SUP_STATUS
  ⟨0xa004, false, 0x0, 1, 0x0, 1, 0x20, 0x0, 0x0, 0x0, 0x0, 0x3f, 0x0, 16, 0x0, 0x0, 0x3f, 0x3f⟩,  -- RST_CAUSE
  ⟨0xa008, false, 0x0, 1, 0x0, 1, 0x0, 0x0, 0x0, 0x0, 0x0, 0x0, 0x0, 16, 0x0, 0x0, 0xffff, 0xffff⟩,  -- NRST_HELD
  ⟨0xa00c, false, 0x0, 1, 0x0, 1, 0x0, 0x0, 0x0, 0x3, 0x0, 0x0, 0x0, 15, 0x3, 0x0, 0x0, 0x3⟩,  -- VBAT_CTRL
  ⟨0xa010, false, 0x0, 1, 0x0, 1, 0x4, 0x0, 0x0, 0x1f, 0x0, 0x0, 0x0, 15, 0x1f, 0x0, 0x0, 0x1f⟩,  -- DWD_CTRL
  ⟨0xa014, false, 0x0, 1, 0x0, 1, 0x1, 0x0, 0x0, 0xffffff, 0x0, 0x0, 0x0, 15, 0xffffff, 0x0, 0x0, 0xffffff⟩,  -- DWD_OPEN
  ⟨0xa018, false, 0x0, 1, 0x0, 1, 0xf4240, 0x0, 0x0, 0xffffff, 0x0, 0x0, 0x0, 15, 0xffffff, 0x0, 0x0, 0xffffff⟩,  -- DWD_CLOSE
  ⟨0xa01c, false, 0x0, 1, 0x0, 1, 0x0, 0x0, 0x0, 0x0, 0x0, 0x0, 0xffffffff, 16, 0x0, 0x0, 0x0, 0xffffffff⟩  -- DWD_KEY
  ]

def regRows11 : List RegRow := [
  ⟨0xa020, false, 0x0, 1, 0x0, 1, 0x0, 0x0, 0x0, 0x0, 0x0, 0x0, 0x0, 16, 0x0, 0x0, 0x0, 0xfffffff⟩,  -- DWD_STATUS
  ⟨0xa024, false, 0x0, 1, 0x0, 1, 0x0, 0xff, 0x0, 0x0, 0x0, 0x0, 0x0, 16, 0x0, 0x0, 0x0, 0xff⟩,  -- DWD_CNT
  ⟨0xa040, false, 0x10, 8, 0x0, 1, 0x0, 0x0, 0x0, 0x3, 0x0, 0x0, 0x0, 15, 0x3, 0x0, 0x0, 0x703⟩,  -- EWD_CTRL
  ⟨0xa044, false, 0x10, 8, 0x0, 1, 0x1, 0x0, 0x0, 0xffffff, 0x0, 0x0, 0x0, 15, 0xffffff, 0x0, 0x0, 0xffffff⟩,  -- EWD_OPEN
  ⟨0xa048, false, 0x10, 8, 0x0, 1, 0xf4240, 0x0, 0x0, 0xffffff, 0x0, 0x0, 0x0, 15, 0xffffff, 0x0, 0x0, 0xffffff⟩,  -- EWD_CLOSE
  ⟨0xa04c, false, 0x10, 8, 0x0, 1, 0x0, 0xff000000, 0x0, 0x0, 0x0, 0x0, 0x0, 16, 0x0, 0x0, 0x0, 0xffffffff⟩,  -- EWD_STATUS
  ⟨0xa0c0, false, 0x0, 1, 0x0, 1, 0x1, 0x0, 0x0, 0x3, 0x0, 0x0, 0x0, 15, 0x3, 0x0, 0x0, 0x3⟩,  -- SAFE_CTRL
  ⟨0xa0c4, false, 0x0, 1, 0x0, 1, 0x3, 0xff00, 0x0, 0x0, 0x0, 0x0, 0x0, 16, 0x0, 0x0, 0x0, 0xffff⟩,  -- SAFE_STATUS
  ⟨0xa0c8, false, 0x0, 1, 0x0, 1, 0x0, 0x0, 0x0, 0x0, 0x0, 0x0, 0x1, 16, 0x0, 0x0, 0x0, 0x1⟩,  -- SAFE_CLR
  ⟨0xa0cc, false, 0x0, 1, 0x0, 1, 0x0, 0x0, 0x0, 0x0, 0x0, 0x0, 0x1, 16, 0x0, 0x0, 0x0, 0x3⟩,  -- SP_LOCK
  ⟨0xa100, false, 0x4, 8, 0x0, 1, 0x0, 0x0, 0x0, 0xffffffff, 0x0, 0x0, 0x0, 16, 0x0, 0x0, 0x0, 0xffffffff⟩,  -- KEY_DATA
  ⟨0xa120, false, 0x0, 1, 0x0, 1, 0x0, 0x0, 0x0, 0x3, 0x0, 0x0, 0xc, 15, 0x8, 0x0, 0x0, 0xf⟩,  -- KEY_CTRL
  ⟨0xa124, false, 0x0, 1, 0x0, 1, 0x0, 0x0, 0x0, 0x0, 0x0, 0x200, 0x0, 16, 0x0, 0x0, 0x0, 0x3ff⟩,  -- KEY_STATUS
  ⟨0xa130, false, 0x0, 1, 0x0, 1, 0x0, 0x0, 0x0, 0x0, 0x0, 0x0, 0x5, 16, 0x0, 0x0, 0x0, 0xf⟩,  -- DBG
  ⟨0x10, false, 0x0, 1, 0x0, 1, 0x0, 0x0, 0x0, 0x0, 0x0, 0x0, 0x0, 16, 0x0, 0x0, 0x0, 0xff07⟩,  -- BOOT_STATUS
  ⟨0xf00, true, 0x0, 1, 0x0, 1, 0x0, 0x1, 0x0, 0x0, 0x0, 0x0, 0x0, 16, 0x0, 0x0, 0x0, 0x3⟩,  -- BRING_CTRL
  ⟨0x20, false, 0x0, 1, 0x0, 1, 0x0, 0x0, 0x0, 0x0, 0x0, 0x0, 0x3ff, 16, 0x0, 0x0, 0x0, 0x3ff⟩,  -- LOCK_SET
  ⟨0x24, false, 0x0, 1, 0x0, 1, 0x0, 0x0, 0x0, 0x0, 0x0, 0x0, 0x0, 16, 0x0, 0x0, 0x0, 0x83ff⟩,  -- LOCK_STATUS
  ⟨0xe00, true, 0x0, 1, 0x0, 1, 0x0, 0x0, 0x0, 0x0, 0x0, 0x0, 0xffffffff, 16, 0x0, 0x0, 0x0, 0xffffffff⟩  -- WDE_KEY
  ]

/-- Every register of the tables. -/
def regRows : List RegRow :=
  regRows0 ++ regRows1 ++ regRows2 ++ regRows3 ++ regRows4 ++ regRows5 ++ regRows6 ++ regRows7 ++ regRows8 ++ regRows9 ++ regRows10 ++ regRows11

/-- Does instance `(i, j)` exist at offset `off` from the base? -/
def RegRow.hasOffset (r : RegRow) (off : Nat) : Bool :=
  (List.range r.n2).any fun j => off ≥ j * r.s2 && (off - j * r.s2 == 0
    || (r.s1 != 0 && (off - j * r.s2) % r.s1 == 0 && (off - j * r.s2) / r.s1 < r.n1))

/-- Is `a` an address of this register? `a` is internal (R379); a window register answers at its offset in every window. -/
def RegRow.covers (r : RegRow) (a : Nat) : Bool :=
  if r.win then 0x800000 ≤ a && a < 0x880000 && r.base ≤ a % 0x10000 && r.hasOffset (a % 0x10000 - r.base)
  else r.base ≤ a && r.hasOffset (a - r.base)

/-- The register at an internal address, if a chapter assigns one (R381). -/
def findReg (a : Nat) : Option RegRow := regRows.find? fun r => r.covers a

/-- The reset value of the register at `a` (R20, R37). -/
def regReset (a : Nat) : Nat :=
  match findReg a with
  | some r => if r.win && r.base == 0 then (a / 0x10000 - 0x80) + 16 * (a / 0x10000 - 0x80 + 1) else r.rst
  | none => 0

/-- The backup-domain bits of the register at `a`. -/
def regBackup (a : Nat) : Nat :=
  match findReg a with
  | some r => r.backup
  | none => 0

end Sys2Proof.Machine
end

