-- ==== Sys2Proof/Machine/State.lean ====
section
/-! DEFINITION. The state of the block, its faults and refusals, and the state after reset. -/

namespace Sys2Proof.Machine

/-- The state of the OAS6440 with its queue of waiting commands. -/
structure State where
  /-- The commands that wait, first in first out. -/
  pending : List Instr := []
  /-- The set-up registers by internal address (R379); an unlisted register holds its reset value. -/
  regs : Cells Reg := []
  /-- TIME48 (R48). -/
  time : Time := 0
  /-- Fine ticks that have passed, not wrapped and not reset: for durations beyond the half range of TIME48 (the model's own). -/
  age : Nat := 0
  /-- Fine ticks since the last coarse tick, 0 to 124 (R48). -/
  fine : Nat := 0
  /-- The capture copies of each agent, by agent number and address of the high register (R49, R384). -/
  caps : Cells Reg := []
  /-- Lock bits written in this coarse tick, which take effect at its end (R387); bit 15 is the safety lock (R362). -/
  lockNext : BitVec 16 := 0
  tick : TickBooks := {}
  tb : Timebase := {}
  fuses : Fuses := {}
  img : ImageUnit := {}
  tiles : Vector Tile 16 := Vector.replicate 16 {}
  easels : Vector Easel 8 := Vector.replicate 8 {}
  /-- The F0 event ring (R144). -/
  f0 : Staging EventE := {}
  f0Poll : Bool := false
  f0PollStale : Bool := false
  f0PollFrom : Nat := 0
  /-- Bus Master Enable of F0 to F8 (R147). -/
  bme : BitVec 9 := 0
  /-- The functions F0 to F8, and the one that the link served last (R145). -/
  pcie : Vector PcieFn 9 := Vector.replicate 9 {}
  turn : Fin 9 := 8
  legs : Vector Leg 64 := Vector.replicate 64 {}
  /-- The voltage on AIN00 to AIN47, in units of 2^-9 mV (R243). -/
  ain : Vector Int 48 := Vector.replicate 48 0
  cmps : Vector Cmp 64 := Vector.replicate 64 {}
  /-- The sources that have activated each choke group since it became active (R248). -/
  groups : Vector (List ChokeSource) 16 := Vector.replicate 16 []
  router : Router := {}
  adc : Vector AdcPair 8 := Vector.replicate 8 {}
  /-- The period in which each pod channel was picked last (R195). -/
  picked : Vector (Option (BitVec 48)) 64 := Vector.replicate 64 none
  links : Vector Link 16 := Vector.replicate 16 {}
  pods : Vector Pod 16 := Vector.replicate 16 {}
  wheel : Wheel := {}
  grid : Grid := {}
  mtr : Metering := {}
  aux : Aux := {}
  sup : Sup := {}
  /-- Global set-up registers that are unpredictable after a host error (R4, R408), by address. -/
  unpredRegs : List Nat := []
  /-- What the device has sent to the host, oldest first. -/
  outbox : List HostMsg := []
  /-- How many free values have been taken (the model's own). -/
  freeCount : Nat := 0
deriving DecidableEq, Repr, Inhabited

/-- No command of this block stops the machine with a fault. The type is empty: every effect the spec gives is a next
state (log entry 2). -/
inductive Fault where
deriving DecidableEq, Repr

/-- Why a command has no meaning. -/
inductive Refusal where
  /-- Raised by `exec` alone, for a command that has no meaning yet. Safe: nothing happens. -/
  | notModelled (mnemonic : String)
deriving DecidableEq, Repr

/-- The machine right after device reset. -/
def State.reset : State := {}

end Sys2Proof.Machine
end

