-- ==== Sys2Proof/Machine/Ops.lean ====
section
/-! DEFINITION. The named operations that every family shares: register fields, the easels, counters, events. -/

namespace Sys2Proof

/-- Does an agent reach the registers of the F0 window (R379, R380)? -/
def Agent.global (a : Agent) : Bool :=
  match a with
  | .fn _ => false
  | .bar2 _ => false
  | _ => true

/-- Does an agent reach the window of easel `e`: F0, or the easel's own function (R379, R380)? -/
def Agent.window (a : Agent) (e : Fin 8) : Bool :=
  match a with
  | .f0 => true
  | .fn n => n == e
  | .sp => false
  | .bar2 _ => false

end Sys2Proof

namespace Sys2Proof.Machine

/-! ## Instants on the scale of the field `age` -/

/-- TIME48 at an age. -/
def State.timeAt (s : State) (t : Nat) : Time := s.time + BitVec.ofInt 48 ((t : Int) - s.age)

/-- The first coarse tick at or after an age. -/
def State.coarseAt (s : State) (t : Nat) : Nat := t + (((s.age : Int) - s.fine - t) % 125).toNat

/-- The first age at or after `t` at which TIME48 is a multiple of `m`. -/
def State.gridAt (s : State) (m t : Nat) : Nat := t + (m - (s.timeAt t).toNat % m) % m

/-- What happened `back` fine ticks before the present instant. -/
def State.ago (s : State) (back : Nat) (f : State → State) : State :=
  let s' := f { s with time := s.time - BitVec.ofNat 48 back, age := s.age - back }
  { s' with time := s.time, age := s.age }

/-! ## Finite families -/

/-- The numbers below `n`, as indices. -/
def fins (n : Nat) : List (Fin n) := (List.range n).filterMap fun i => if h : i < n then some ⟨i, h⟩ else none

/-- Applies `f` at every index in ascending order. -/
def forAll {α : Type} (n : Nat) (f : Fin n → α → α) (a : α) : α := (fins n).foldl (fun a i => f i a) a

/-- Replaces entry `i` of a vector by its image under `f`. -/
def upd {α : Type} {n : Nat} (v : Vector α n) (i : Fin n) (f : α → α) : Vector α n := v.set i.val (f v[i]) i.isLt

/-! ## Register fields -/

/-- The value of the field in its register. -/
def Fld.read (f : Fld) (v : Reg) : Nat := v.toNat / 2 ^ f.lo % 2 ^ f.width

/-- The register with the field replaced by the low bits of `x`. -/
def Fld.insert (f : Fld) (v : Reg) (x : Nat) : Reg :=
  BitVec.ofNat 32 (v.toNat % 2 ^ f.lo + x % 2 ^ f.width * 2 ^ f.lo + v.toNat / 2 ^ (f.lo + f.width) * 2 ^ (f.lo + f.width))

/-- The largest value of the field. -/
def Fld.top (f : Fld) : Nat := 2 ^ f.width - 1

/-- The whole register that holds the field. -/
def State.word (s : State) (f : Fld) : Reg := Cells.get (BitVec.ofNat 32 f.rst) f.addr s.regs

/-- Reads a field. -/
def State.get (s : State) (f : Fld) : Nat := f.read (s.word f)

/-- Writes a field; the other fields of its register keep their values. -/
def State.set (s : State) (f : Fld) (x : Nat) : State :=
  { s with regs := Cells.put (BitVec.ofNat 32 f.rst) f.addr (f.insert (s.word f) x) s.regs }

/-- A one-bit field as a truth value. -/
def State.flag (s : State) (f : Fld) : Bool := s.get f != 0

/-- Writes a one-bit field. -/
def State.setFlag (s : State) (f : Fld) (b : Bool) : State := s.set f b.toNat

/-- Bit `i` of a field. -/
def State.bit (s : State) (f : Fld) (i : Nat) : Bool := s.get f / 2 ^ i % 2 == 1

/-- Writes bit `i` of a field. -/
def State.setBit (s : State) (f : Fld) (i : Nat) (b : Bool) : State :=
  s.set f (s.get f % 2 ^ i + b.toNat * 2 ^ i + s.get f / 2 ^ (i + 1) * 2 ^ (i + 1))

/-- Hardware sets bit `i` of a W1C field: a write that clears it in the same coarse tick finds it set afterwards (R10, R383). -/
def State.raiseBit (s : State) (f : Fld) (i : Nat) : State :=
  let s := s.setBit f i true
  { s with tick := { s.tick with raised := (f.addr, 2 ^ (f.lo + i)) :: s.tick.raised } }

/-- Hardware sets a W1C bit. -/
def State.raise (s : State) (f : Fld) : State := s.raiseBit f 0

/-- A count of a counter, for a clear in the same coarse tick (R9). -/
def State.noteCount (s : State) (f : Fld) : State :=
  { s with tick := { s.tick with counts := (f.addr, f.lo, f.width) :: s.tick.counts } }

/-- A 32-bit field that holds a signed or unsigned 48-bit pair: high part and low part. -/
def State.get2 (s : State) (hi lo : Fld) : Nat := s.get hi * 2 ^ 32 + s.get lo

/-! ## Easels -/

/-- Easel `e`. -/
def State.ez (s : State) (e : Fin 8) : Easel := s.easels[e]

/-- Changes easel `e`. -/
def State.modEz (s : State) (e : Fin 8) (f : Easel → Easel) : State := { s with easels := upd s.easels e f }

/-- DB_CTRL.RUN of an easel. -/
def State.run (s : State) (e : Fin 8) : Bool := s.flag (R.DB_CTRL_RUN e)

/-- The easel that an owner field names, if its ASSIGNED bit is 1 (R109). -/
def State.owner (s : State) (f : Fld) : Option (Fin 8) :=
  if s.get f ≥ 8 then some ⟨s.get f % 8, Nat.mod_lt _ (by decide)⟩ else none

def State.ownerLeg (s : State) (l : Fin 64) : Option (Fin 8) := s.owner (R.OWN_LEG l)
def State.ownerCmp (s : State) (c : Fin 64) : Option (Fin 8) := s.owner (R.OWN_CMP c)
def State.ownerWheel (s : State) : Option (Fin 8) := s.owner R.OWN_WHEEL_WHEEL
def State.ownerMeter (s : State) : Option (Fin 8) := s.owner R.OWN_WHEEL_METER

/-- Limp states (R81). -/
def limpNormal : Nat := 0
def limpPass : Nat := 1
def limpHrd : Nat := 2
def limpDone : Nat := 3

def State.limp (s : State) (e : Fin 8) : Nat := s.get (R.SCHED_STATUS_LIMP_STATE e)

/-- Is the easel in HRD or HRD_DONE? -/
def State.inHrd (s : State) (e : Fin 8) : Bool := s.limp e ≥ 2

/-! ## Events (R144, R163 to R165) -/

/-- The codes of class C. Every other code is of class U. -/
def classC : List Nat :=
  [0x14, 0x15, 0x20, 0x21, 0x30, 0x40, 0x50, 0x51, 0x100, 0x101, 0x102, 0x103, 0x200, 0x201, 0x303, 0x304, 0x305,
   0x401, 0x402, 0x503, 0x504, 0x601, 0x603, 0x604, 0x700, 0x710, 0x721]

/-- The events of the F0 ring that name an easel (R165). -/
def f0NamesEasel : List Nat := [0x32, 0x50, 0x51, 0x802]

/-- Does a staged entry take this event (R163)? -/
def EventE.takes (x : EventE) (code : Nat) (easel : Option (Fin 8)) (arg0 : BitVec 64) : Bool :=
  x.code == code && x.easel == easel && x.arg0 == arg0

/-- The staged entry after one more occurrence (R163, R164). -/
def EventE.again (x : EventE) (ev : EventE) : EventE :=
  { x with count := if x.count < 65535 then x.count + 1 else 65535, tLast := ev.tLast, arg1 := ev.arg1, arg2 := ev.arg2,
           arg3 := ev.arg3, arg4 := ev.arg4 }

/-- Coalesces an event into the first entry that takes it. -/
def coalesce (ev : EventE) : List EventE → Option (List EventE)
  | [] => none
  | x :: t => if x.takes ev.code ev.easel ev.arg0 then some (x.again ev :: t) else (coalesce ev t).map (x :: ·)

/-- Enters an event into a staging buffer of 32 entries; none: it must be dropped (R144, R163). -/
def stageEvent (q : Staging EventE) (ev : EventE) : Option (Staging EventE) :=
  match if classC.contains ev.code then coalesce ev q.entries else none with
  | some l => some { q with entries := l }
  | none => if q.entries.length < 32 then some { q with entries := q.entries ++ [ev] } else none

/-- One more drop, with the time of the first (R144, R168). -/
def Staging.drop {α : Type} (q : Staging α) (t : Stamp) : Staging α :=
  { q with drops := min 65535 (q.drops + 1), tDrop := if q.drops = 0 then t else q.tDrop }

/-- The event record of one occurrence. -/
def mkEvent (code : Nat) (easel : Option (Fin 8)) (db : BitVec 48) (t : Stamp) (args : List (BitVec 64)) : EventE :=
  { code := code, easel := easel, count := 1, tFirst := t, tLast := t, dbFirst := db, arg0 := args.getD 0 0,
    arg1 := args.getD 1 0, arg2 := args.getD 2 0, arg3 := args.getD 3 0, arg4 := args.getD 4 0 }

/-- The arguments of COUNTER_OVF and COUNTER_SAT for a counter field (R164). -/
def counterArgs (f : Fld) : List (BitVec 64) :=
  if f.addr ≥ 0x800000 then [BitVec.ofNat 64 (f.addr % 0x10000 * 64 + f.lo), 0]
  else [BitVec.ofNat 64 (f.addr * 64 + f.lo), 1]

/-- The easel whose window holds a register. -/
def windowOf (a : Nat) : Option (Fin 8) :=
  if 0x800000 ≤ a ∧ a < 0x880000 then some ⟨(a - 0x800000) / 0x10000 % 8, Nat.mod_lt _ (by decide)⟩ else none

/-- Drops an event of easel `e`: EVT_DROP_CNT of class W, EVT_GAP, and the books of the gap marker (R144). A wrap posts
COUNTER_OVF, which itself is dropped where it finds no entry to join. -/
def State.dropEvent (s : State) (e : Fin 8) (t : Stamp) : State :=
  let s := (s.modEz e fun z => { z with evt := z.evt.drop t }).raise (R.RING_STATUS_EVT_GAP e)
  let f := R.EVT_DROP_CNT_COUNT e
  let s := s.noteCount f
  if s.get f < f.top then s.set f (s.get f + 1)
  else
    let s := (s.set f 0).raise (R.RING_STATUS_EVT_DROP_OVF e)
    match stageEvent (s.ez e).evt (mkEvent 0x50 (some e) (s.ez e).dbCount t (counterArgs f)) with
    | some q => s.modEz e fun z => { z with evt := q }
    | none => (s.modEz e fun z => { z with evt := z.evt.drop t }).set f 1

/-- Posts an event to an easel ring, stamped `t`. -/
def State.postEaselAt (s : State) (t : Time) (e : Fin 8) (code : Nat) (args : List (BitVec 64)) : State :=
  match stageEvent (s.ez e).evt (mkEvent code (some e) (s.ez e).dbCount (stamp t) args) with
  | some q => s.modEz e fun z => { z with evt := q }
  | none => s.dropEvent e (stamp t)

/-- Posts an event to an easel ring. -/
def State.postEasel (s : State) (e : Fin 8) (code : Nat) (args : List (BitVec 64)) : State :=
  s.postEaselAt s.time e code args

/-- Posts an event to the F0 ring; `easel` counts only for the codes that name one (R165). -/
def State.postF0For (s : State) (easel : Option (Fin 8)) (code : Nat) (args : List (BitVec 64)) : State :=
  let e := if f0NamesEasel.contains code then easel else none
  let db := match e with
    | some e => (s.ez e).dbCount
    | none => 0
  match stageEvent s.f0 (mkEvent code e db (stamp s.time) args) with
  | some q => { s with f0 := q }
  | none =>
    let s := { s with f0 := s.f0.drop (stamp s.time) }
    s.raise R.F0_RING_STATUS_EVT_GAP

def State.postF0 (s : State) (code : Nat) (args : List (BitVec 64)) : State := s.postF0For none code args

/-- Posts to the ring of the owner, or to the F0 ring where there is none. -/
def State.postOwner (s : State) (o : Option (Fin 8)) (code : Nat) (args : List (BitVec 64)) : State :=
  match o with
  | some e => s.postEasel e code args
  | none => s.postF0 code args

/-- A natural number as an event argument. -/
abbrev arg (n : Nat) : BitVec 64 := BitVec.ofNat 64 n

/-! ## Counters (R6 to R11) -/

/-- One count of a class W counter with its sticky bit (R6). -/
def State.bumpW (s : State) (f sticky : Fld) : State :=
  let s := s.noteCount f
  if s.get f < f.top then s.set f (s.get f + 1)
  else ((s.set f 0).raise sticky).postOwner (windowOf f.addr) 0x50 (counterArgs f)

/-- One count of a class S counter that has no event code of its own (R7). -/
def State.bumpS (s : State) (f : Fld) : State :=
  let s := s.noteCount f
  if s.get f = f.top then s
  else
    let s := s.set f (s.get f + 1)
    if s.get f = f.top then s.postOwner (windowOf f.addr) 0x51 (counterArgs f) else s

/-- One count of a class K counter (R8). -/
def State.bumpK (s : State) (f : Fld) : State := (s.noteCount f).set f (s.get f + 1)

/-- Counts a class K counter down, with a stop at 0 (R11). -/
def State.countDown (s : State) (f : Fld) : State := s.set f (s.get f - 1)

/-! ## Who reaches a register (R379, R380); nobody does during device reset -/

/-- Does a write by the agent reach a register of the F0 window? -/
def State.reaches (s : State) (a : Agent) : Bool := a.global && !s.sup.inReset

/-- Does a write by the agent reach a register of the window of easel `e`? -/
def State.reachesWindow (s : State) (a : Agent) (e : Fin 8) : Bool := a.window e && !s.sup.inReset

/-! ## The order of writes in one coarse tick (R383) -/

/-- The place of an agent in the order of writes in one coarse tick (R383). -/
def agentRank (a : Agent) : Nat :=
  match a with
  | .sp => 0
  | .f0 => 1
  | .fn e => e.val + 2
  | .bar2 fn => fn.val + 10

/-- Bits of the register at `t` that an agent later in the order has written in this coarse tick. -/
def State.overruled (s : State) (a : Agent) (t : Nat) : Nat :=
  s.tick.writes.foldl (fun (m : Nat) (x : Nat × Nat × Nat) => if x.1 = t ∧ agentRank a < x.2.1 then m ||| x.2.2 else m) 0

/-- Bits `w` of the register at `t` have been written by the agent. -/
def State.noteWrite (s : State) (a : Agent) (t w : Nat) : State :=
  { s with tick := { s.tick with writes := (t, agentRank a, w) :: s.tick.writes } }

/-! ## Locks (R18, R19, R386 to R388) -/

/-- Is lock group `g` locked? Group 15 is the safety lock group. -/
def State.locked (s : State) (g : Nat) : Bool :=
  if g = 15 then s.flag R.LOCK_STATUS_SAFETY else s.bit R.LOCK_STATUS_LOCKED g

/-- May the agent write a SUP or RWL field of group `g` at its global address (R389)? -/
def State.mayWrite (s : State) (a : Agent) (g : Nat) : Bool := s.reaches a && !s.locked g

/-- May the agent write an EN field that still takes a 1 after its group is locked (R388)? -/
def State.mayEnable (s : State) (a : Agent) (g : Nat) (f : Fld) (on : Bool) : Bool :=
  s.reaches a && (!s.locked g || (on && !s.flag f))

/-! ## Router pulses, free values -/

/-- A source of the event router that reads 1 for one coarse tick (R251). -/
def State.pulse (s : State) (src : Nat) : State :=
  { s with router := { s.router with pulses := s.router.pulses ||| BitVec.ofNat 256 (2 ^ src) } }

/-- Takes the next free value: its number, and the state after the draw. -/
def State.draw (s : State) : State := { s with freeCount := s.freeCount + 1 }

/-! ## Host errors (R2 to R5) -/

/-- Does a choke hold leg `l` whatever its owner does: any cause but HRD, which is the owner's own (R3, R246)? -/
def State.legHeld (s : State) (l : Fin 64) : Bool := s.get (R.LEG_STATUS_CAUSE l) % 8 + s.get (R.LEG_STATUS_CAUSE l) / 16 != 0

/-- Gives a leg any pending and active value and, unless a choke holds it, any pins that are not both high (R2, R3). A leg that
HRD or the wait for its release keeps choked is released once a pin is high. -/
def State.scrambleLeg (s : State) (l : Fin 64) : State :=
  let p := if s.legHeld l then none else Config.freePins s.freeCount
  let v := Config.freeLeg s.freeCount
  let s := { s with legs := upd s.legs l fun x =>
    { x with pending := v.1, active := v.2, gh := p == some true, gl := p == some false,
             clearedAt := if p = none then x.clearedAt else none } }
  let s := if p = none then s else (s.set (R.LEG_STATUS_CAUSE l) 0).setFlag (R.LEG_STATUS_CHOKED l) false
  s.draw

/-- Gives the registers of an easel window any values. -/
def State.scrambleWindow (s : State) (e : Fin 8) : State :=
  let base := 0x800000 + 0x10000 * e.val
  let s := { s with regs := (Config.freeWindow s.freeCount).foldl (fun (m : Cells Reg) (p : BitVec 16 × Reg) =>
    Cells.put (BitVec.ofNat 32 (regReset (base + p.1.toNat))) (base + p.1.toNat) p.2 m) s.regs }
  s.draw

/-- Gives the bits of a mask in the register at `t` any values. -/
def State.scrambleBits (s : State) (t mask : Nat) : State :=
  let old := (Cells.get (BitVec.ofNat 32 (regReset t)) t s.regs).toNat
  let new := old - (old &&& mask) + ((Config.freeReg s.freeCount).toNat &&& mask)
  { s with regs := Cells.put (BitVec.ofNat 32 (regReset t)) t (BitVec.ofNat 32 new) s.regs, freeCount := s.freeCount + 1 }

/-- The bits of the register at `t` that its owner sets, and that no lock group holds for the protection layer (R3). -/
def ownerBits (t : Nat) : Nat :=
  match findReg t with
  | some r => r.rw
  | none => 0

/-- Gives the fields that an owner sets in a block of registers any values. -/
def State.scrambleBlock (s : State) (base n : Nat) : State :=
  (List.range n).foldl (fun s i => s.scrambleBits (base + 4 * i) (ownerBits (base + 4 * i))) s

/-- Gives the pairs, pod channels and unprotected comparators of easel `e` any state that is their owner's (R2). -/
def State.scrambleConv (s : State) (e : Fin 8) : State :=
  let s := forAll 8 (fun (p : Fin 8) s => if s.owner (R.OWN_ADCP p) = some e then
    ({ s with adc := upd s.adc p fun _ => Config.freePair s.freeCount }).draw.scrambleBlock (0x6000 + 0x100 * p.val) 64 else s) s
  let s := forAll 64 (fun (c : Fin 64) s => if s.owner (R.OWN_PODCH c) = some e then s.scrambleBlock (0x7000 + 0x10 * c.val) 4 else s) s
  forAll 64 (fun (c : Fin 64) s => if s.ownerCmp c = some e ∧ s.flag (R.CMP_CFG_PROT c) = false then
    (s.scrambleBits (0x8800 + 0x10 * c.val) 0xFFFFFFF).scrambleBits (0x8804 + 0x10 * c.val) 0xFFF0FFF else s) s

/-- Any writes into the host memory granted to easel `e`, and into no other (R2, R3, R133). -/
def State.scrambleHost (s : State) (e : Fin 8) : State :=
  let log2 := s.get (R.GRANT_LO_LOG2 e)
  let base := s.get (R.GRANT_HI_BASE_HI e) * 2 ^ 32 + s.get (R.GRANT_LO_BASE_LO e) * 2 ^ 16
  if log2 = 0 then s
  else ({ s with outbox := s.outbox ++ (Config.freeHostWrites s.freeCount).map fun (w : BitVec 32 × BitVec 64) =>
    HostMsg.write (BitVec.ofNat 64 (base + w.1.toNat / 8 * 8 % 2 ^ log2)) [w.2] }).draw

/-- Any values in the state, window, legs, conversion resources and granted memory of easel `e` (R2). Its ledger readout and its
books in global registers follow from that state; its auxiliary outputs follow its requests, which are words of that state, as
far as the energy limits let them (R3). -/
def State.scramble (s : State) (e : Fin 8) : State :=
  let z := Config.freeEasel s.freeCount
  let s := (s.modEz e fun old => { z with unpred := true, unpredEnds := old.unpredEnds, reset := old.reset }).draw
  let s := ((s.scrambleWindow e).scrambleConv e).scrambleHost e
  forAll 64 (fun l s => if s.ownerLeg l = some e then s.scrambleLeg l else s) s

/-- A host error on easel `e`: unpredictable until step 6 of an easel reset whose step 1 falls after it (R2, R5). -/
def State.hostError (s : State) (e : Fin 8) : State :=
  (s.modEz e fun z => { z with unpred := true, unpredEnds := false }).scramble e

/-- A host error on each easel of a list. -/
def State.hostErrors (s : State) (es : List (Fin 8)) : State := es.foldl State.hostError s

/-- Is the global register at `t` one of the items that a host error never changes (R3): coupler energy caps, clamps and the
discharge, supplies, watchdogs, safety? -/
def exactRegister (t : Nat) : Bool :=
  (within t 0x7800 0x7FFF && (t - 0x7800) % 0x80 == 4) || within t 0x9C80 0x9CDB || within t 0xA000 0xA11F || within t 0xA128 0xA12F

/-- The bits of the owner register at `a` that exist (R109). -/
def ownerMask (a : Nat) : Nat := if a = 0x3084 then 0xFFFFF else if a = 0x308C then 0xFFFF else 0xFFFFFFFF

/-- The bits of the global register at `t` that an error in it makes unpredictable: what is set up there, not what it reports. -/
def settableBits (t : Nat) : Nat :=
  if exactRegister t then 0
  else if within t 0x3000 0x308C then ownerMask t
  else
    match findReg t with
    | some r => r.rw ||| r.dyn ||| r.sup ||| r.rwl
    | none => 0

/-- Gives what a register sets up any value (R4). -/
def State.scrambleReg (s : State) (a : Nat) : State := s.scrambleBits a (settableBits a)

/-- Is the register at `t` a setting of the protection layer: FLT of a leg, a group mask or a protection comparator, a choke
group, a route (R407)? -/
def State.protective (s : State) (t : Nat) : Bool :=
  (within t 0x8000 0x87FF && t % 0x20 == 0x14) || within t 0x8C00 0x8EFF
    || (within t 0x8800 0x8BFF && (t % 0x10 == 8 || s.flag (R.CMP_CFG_PROT ((t - 0x8800) / 0x10))))

/-- Does the setting at `t`, in error, fail to act at this instant (R407)? -/
def State.fails (s : State) (t : Nat) : Bool := s.unpredRegs.contains t && Config.wildFails s.age t

/-- A host error in global set-up that touches no easel, or in a protection setting: the register written is unpredictable until
device reset, or, in the backup domain, until backup-domain power-on (R4, R408). A protection setting keeps its value: it acts,
or fails to act, on its own (R407). -/
def State.globalError (s : State) (a : Nat) : State :=
  let s := { s with unpredRegs := if s.unpredRegs.contains a then s.unpredRegs else s.unpredRegs ++ [a] }
  if s.protective a then s else s.scrambleReg a

end Sys2Proof.Machine
end

