-- ==== Sys2Proof/Machine/Links.lean ====
section
/-! DEFINITION. Sprinrek links at the controller: checks, the carrier and its energy book, frames, training and link states
(Daderal Pods and Sprinrek Links). -/

namespace Sys2Proof.Machine

/-! ## Checks -/

/-- A cyclic redundancy check of `w` bits over bits in the order of transmission. -/
def crcBits (w poly : Nat) : Nat → List Bool → Nat
  | c, [] => c
  | c, b :: bs =>
    let top := c / 2 ^ (w - 1) % 2 == 1
    crcBits w poly ((2 * c % 2 ^ w) ^^^ (if top != b then poly else 0)) bs

/-- The low `n` bits of a number, least significant first, and most significant first. -/
def lsbFirst (n v : Nat) : List Bool := (List.range n).map fun i => v / 2 ^ i % 2 == 1
def msbFirst (n v : Nat) : List Bool := (lsbFirst n v).reverse

/-- CRC-8 of a downlink frame (R209) and CRC-4 of an uplink body (R214). -/
def frameCrc (body : Nat) : Nat := crcBits 8 0x07 0 (lsbFirst 32 body)
def wordCrc (body : Nat) : Nat := crcBits 4 0x3 0xF (lsbFirst 28 body)

/-- Is the frame intact? -/
def frameOk (f : BitVec 40) : Bool := f.toNat / 2 ^ 32 == frameCrc (f.toNat % 2 ^ 32)

/-- Is the body intact? -/
def wordOk (w : BitVec 32) : Bool := w.toNat / 2 ^ 28 == wordCrc (w.toNat % 2 ^ 28)

/-- A downlink frame. -/
def mkFrame (cmd : Nat) (seq : BitVec 4) (addr : Nat) (data : Nat) : BitVec 40 :=
  let body := cmd + 2 ^ 4 * seq.toNat + 2 ^ 8 * (addr % 256) + 2 ^ 16 * (data % 65536)
  BitVec.ofNat 40 (body + 2 ^ 32 * frameCrc body)

/-- An uplink body. -/
def mkWord (body : Nat) : BitVec 32 := BitVec.ofNat 32 (body + 2 ^ 28 * wordCrc body)

/-- A control word. -/
def mkControl (type data : Nat) (seq : BitVec 4) : BitVec 32 := mkWord (type + 2 ^ 8 * (data % 65536) + 2 ^ 24 * seq.toNat)

/-- Bits in Manchester code: a 1 is the chip pair high, low, and a 0 is low, high (R209). -/
def manchester (l : List Bool) : List Bool := l.flatMap fun b => [b, !b]

/-- The chips of a downlink frame: the start delimiter, then the body, least significant bit first (R209). -/
def frameChips (f : BitVec 40) : List Bool := [true, true, false, false] ++ manchester (lsbFirst 40 f.toNat)

/-- Do the 64 chips of an uplink body, the first in bit 0, keep the Manchester code, and which body do they spell (R214)? -/
def chipsOk (x : BitVec 64) : Bool := (List.range 32).all fun i => x.getLsbD (2 * i) != x.getLsbD (2 * i + 1)
def chipsBody (x : BitVec 64) : BitVec 32 :=
  (List.range 32).foldl (fun (w : BitVec 32) i => if x.getLsbD (2 * i) then w ||| BitVec.ofNat 32 (2 ^ i) else w) 0

def cmdWrite : Nat := 1
def cmdRead : Nat := 2
def cmdAlign : Nat := 3
def cmdEcho : Nat := 4
def cmdReset : Nat := 5

/-- CFG_CRC over the values of the configuration registers in address order (R223). -/
def cfgCrc (v : List (BitVec 16)) : Nat := crcBits 16 0x1021 0xFFFF (v.flatMap fun x => msbFirst 16 x.toNat)

/-- The pod address of configuration register `k`. -/
def cfgAddr (k : Nat) : Nat := if k = 0 then 0x02 else if k = 1 then 0x03 else if k = 2 then 0x06 else 0x10 + (k - 3)

/-! ## Access -/

def slOff : Nat := 0
def slCharge : Nat := 1
def slTrain : Nat := 2
def slUp : Nat := 3
def slRealign : Nat := 4
def slGap : Nat := 5
def slFault : Nat := 6

def State.link (s : State) (p : Fin 16) : Link := s.links[p]
def State.modLink (s : State) (p : Fin 16) (f : Link → Link) : State := { s with links := upd s.links p f }
def State.slState (s : State) (p : Fin 16) : Nat := s.get (R.SL_STATUS_STATE p)
def State.level (s : State) (p : Fin 16) : Nat := s.get (R.SL_STATUS_LEVEL p)

/-- The pod channel of a link. -/
def podCh (p : Fin 16) (c : Fin 4) : Fin 64 := ⟨4 * p.val + c.val, by omega⟩

/-- Posts to F0 and to each easel that owns a channel of the pod (R232). -/
def State.postLink (s : State) (p : Fin 16) (code : Nat) (args : List (BitVec 64)) : State :=
  forAll 8 (fun e s => if (fins 4).any fun c => s.owner (R.OWN_PODCH (podCh p c)) == some e then
    s.postEasel e code (arg p.val :: args) else s) (s.postF0 code (arg p.val :: args))

/-! ## The configuration a training uses -/

/-- The shadows of link `p` now. -/
def State.shadows (s : State) (p : Fin 16) : Vector (BitVec 16) 19 :=
  Vector.ofFn fun (k : Fin 19) =>
    let c := (k.val - 3) / 4
    BitVec.ofNat 16 (
      if k.val = 0 then s.get (R.PCFG_CTRL_CTRL p)
      else if k.val = 1 then s.get (R.PCFG_CTRL_DARK_T p)
      else if k.val = 2 then s.get (R.PCFG_ALM_ALARM_EN p)
      else if (k.val - 3) % 4 = 0 then s.get (R.PCFG_CH_EN p c)
      else if (k.val - 3) % 4 = 1 then s.get (R.PCFG_CH_OSR_M1 p c)
      else if (k.val - 3) % 4 = 2 then s.get (R.PCFG_CH_DIV_M1 p c)
      else s.get (R.PCFG_CH_OVL p c))

/-- Is channel `c` enabled, its M, and its output period (R212)? -/
def Link.chOn (x : Link) (c : Fin 4) : Bool := (x.cfg[3 + 4 * c.val]).getLsbD 0
def Link.chM (x : Link) (c : Fin 4) : Nat := (x.cfg[4 + 4 * c.val]).toNat + 1
def Link.chPeriod (x : Link) (c : Fin 4) : Nat := 500 * x.chM c * ((x.cfg[5 + 4 * c.val]).toNat + 1)

/-- The enabled channels. -/
def Link.channels (x : Link) : List (Fin 4) := (fins 4).filter fun c => x.chOn c
def Link.mask (x : Link) : Nat := x.channels.foldl (fun m c => m + 2 ^ c.val) 0

/-! ## Carrier (R208, R221) -/

/-- The carrier turns on at LEVEL_START; after a cut it stays off for the rest of the window (R220). -/
def State.carrierOn (s : State) (p : Fin 16) : State :=
  if (s.link p).cut then s
  else (s.set (R.SL_STATUS_LEVEL p) (s.get (R.SL_CTRL_LEVEL_START p))).modLink p fun x => { x with carrierAt := s.age }

/-- The carrier of a link, in units of 100 MHz: 51, 52 or 53 times the coarse-tick rate; none while it is off (R208). -/
def State.carrier (s : State) (p : Fin 16) : Option Nat :=
  if s.level p = 0 then none else some (51 + s.get (R.SL_CTRL_FREQ p))

/-- The nominal forward power of a link in units of 0.1 mW (R208). -/
def State.forwardPower (s : State) (p : Fin 16) : Nat := 8 * s.level p

/-- The carrier goes off. -/
def State.carrierOff (s : State) (p : Fin 16) : State :=
  (s.set (R.SL_STATUS_LEVEL p) 0).modLink p fun x => { x with carrierAt := s.age, gone := true }

/-- Enters a link state; a link that is not in UP delivers no channel. -/
def State.slEnter (s : State) (p : Fin 16) (st : Nat) : State :=
  let s := s.set (R.SL_STATUS_STATE p) st
  let s := if st = slUp then s else s.set (R.SL_STATUS_CH_UP p) 0
  s.modLink p fun x => { x with lastWord := s.age, train := if st = slTrain then x.train else .off }

/-! ## Frames (R209, R213) -/

/-- The end of a frame sent now. -/
def State.frameEnds (s : State) (p : Fin 16) : Nat := s.gridAt 1250 (max s.age (s.link p).frameEnd) + 52500

/-- Sends a frame with the next sequence number. -/
def State.sendFrame (s : State) (p : Fin 16) (cmd addr data : Nat) : State :=
  let t := s.frameEnds p
  s.modLink p fun x => { x with seq := x.seq + 1, frameEnd := t, frames := x.frames ++ [(mkFrame cmd (x.seq + 1) addr data, t)] }

/-- The chip on the downlink of a link at an instant: that of the frame under way, or of an idle 0 bit; none without a carrier
(R209). -/
def State.downlinkChip (s : State) (p : Fin 16) (t : Nat) : Option Bool :=
  if s.level p = 0 then none
  else match (s.link p).frames.find? fun f => decide (f.2 ≤ t + 52500) && decide (t < f.2) with
    | some f => (frameChips f.1)[(t + 52500 - f.2) / 625]?
    | none => some (decide (625 ≤ (s.timeAt t).toNat % 1250))

/-- The count of ALIGN: modulator edges after the frame's end, up to the next output that meets R212. -/
def State.alignCount (s : State) (p : Fin 16) (c : Fin 4) : Nat :=
  let x := s.link p
  let t := s.frameEnds p
  let per := x.chPeriod c
  let out := t + 1 + ((((x.phase[c]).toNat : Int) - (s.timeAt (t + 1)).toNat) % (per : Int)).toNat
  (out - t + (s.timeAt t).toNat % 500) / 500

/-- ALIGN to each enabled channel. -/
def State.sendAligns (s : State) (p : Fin 16) : State :=
  (s.link p).channels.foldl (fun s c => s.sendFrame p cmdAlign c.val (s.alignCount p c)) s

/-! ## Training (R210, R222, R223) -/

/-- The training takes a step that starts now. -/
def State.trainStep (s : State) (p : Fin 16) (t : Train) : State := s.modLink p fun x => { x with train := t, stepAt := s.age }

/-- Step 1. -/
def State.trainEcho (s : State) (p : Fin 16) : State := (s.trainStep p (.echo 2)).sendFrame p cmdEcho 0 0

/-- Step 2, write `k`. -/
def State.trainConfig (s : State) (p : Fin 16) (k : Fin 19) : State :=
  (s.trainStep p (.config k.val)).sendFrame p cmdWrite (cfgAddr k.val) ((s.link p).cfg[k]).toNat

/-- Entry into TRAIN: the count and SL_TRAIN; the shadows in force from now on; RESET first for causes 4 and 5. -/
def State.trainEnter (s : State) (p : Fin 16) (cause : Nat) : State :=
  let s := (s.slEnter p slTrain).bumpS (R.SL_COUNTS_RETRAIN_CNT p)
  let s := s.postLink p 0x301 [arg cause]
  let phase : Vector (BitVec 24) 4 := Vector.ofFn fun (c : Fin 4) => BitVec.ofNat 24 (s.get (R.PHASE_PHASE p c))
  let s := s.modLink p fun x => { x with cause := cause, cfg := s.shadows p, phase := phase }
  if cause = 4 ∨ cause = 5 then (s.trainStep p .reset).sendFrame p cmdReset 0 0 else s.trainEcho p

/-- A failure is counted; RETRY_MAX of them in a row bring FAULT. True: the link is in FAULT. -/
def State.linkFails (s : State) (p : Fin 16) : State × Bool :=
  let s := s.modLink p fun x => { x with fails := x.fails + 1 }
  if s.get (R.SL_CTRL_RETRY_MAX p) ≤ (s.link p).fails then
    (((s.slEnter p slFault).carrierOff p).postLink p 0x302 [arg (s.get (R.SL_COUNTS_RETRAIN_CNT p))], true)
  else (s, false)

/-- A training step fails. -/
def State.trainFail (s : State) (p : Fin 16) : State :=
  let r := s.linkFails p
  if r.2 then r.1 else r.1.trainEnter p 5

/-- UP is reached. -/
def State.linkUp (s : State) (p : Fin 16) : State :=
  ((s.slEnter p slUp).set (R.SL_STATUS_CH_UP p) (s.link p).mask).modLink p fun x => { x with fails := 0 }

/-- Step 6: PGD of each enabled channel, CH_UP, UP, SL_UP (R223, R224). -/
def State.trainDone (s : State) (p : Fin 16) : State :=
  let x := s.link p
  let s := x.channels.foldl (fun s c =>
    (s.set (R.LAT_L p c) x.least[c]).set (R.POD_PGD_PGD (podCh p c)) (750 * (x.chM c - 1) + x.least[c] + 500)) s
  (s.linkUp p).postLink p 0x300 [arg x.mask]

/-- Has every enabled channel given its 8 words? -/
def Link.measured (x : Link) : Bool := x.channels.all fun c => decide (8 ≤ x.words[c])

/-- Step 5 starts, after ALIGN to each enabled channel (step 4). -/
def State.trainMeasure (s : State) (p : Fin 16) : State :=
  let s := ((s.sendAligns p).trainStep p .measure).modLink p fun x =>
    { x with words := Vector.replicate 4 0, least := Vector.replicate 4 0 }
  if (s.link p).measured then s.trainDone p else s

/-! ## GAP and REALIGN (R220, R222) -/

/-- REALIGN starts. -/
def State.realign (s : State) (p : Fin 16) : State :=
  let s := ((s.slEnter p slRealign).modLink p fun x => { x with settled := 0 }).sendAligns p
  if (s.link p).channels.isEmpty then s.linkUp p else s

/-- The carrier is cut by the energy cap (R220). -/
def State.capCut (s : State) (p : Fin 16) : State :=
  let st := s.slState p
  let level := s.level p
  let s := ((s.raise (R.SL_STATUS_CAP_CUT p)).bumpS (R.SL_COUNTS_CAPCUT_CNT p)).postLink p 0x303
    [arg (s.get (R.SL_ENERGY_USED p)), arg level]
  ((s.carrierOff p).modLink p fun x => { x with prev := st, cut := true }).slEnter p slGap

/-- A budget window starts; a link that was enabled again after a cut turns its carrier on now. -/
def State.windowStart (s : State) (p : Fin 16) : State :=
  let wasCut := (s.link p).cut
  let s := (s.set (R.SL_ENERGY_USED p) 0).set (R.SL_ENERGY_REMAIN p) (s.get (R.SL_CAP_E_CAP p))
  let s := if wasCut then s.modLink p fun x => { x with cut := false } else s
  if wasCut && s.slState p == slCharge then s.carrierOn p
  else if s.slState p = slGap then
    let s := s.carrierOn p
    if (s.link p).prev = slCharge then s.trainEnter p 0
    else if (s.link p).prev = slTrain then s.trainEnter p (s.link p).cause
    else s.realign p
  else s

/-- `k` coarse ticks of the energy book, the last of them `back` fine ticks ago: USED rises by the level, and the tick that
would bring it above E_CAP cuts the carrier. -/
def State.linkRun (s : State) (p : Fin 16) (k back : Nat) : State :=
  let level := s.level p
  if level = 0 then s
  else
    let room := s.get (R.SL_ENERGY_REMAIN p) / level
    let n := min k room
    let used := s.get (R.SL_ENERGY_USED p) + n * level
    let s := (s.set (R.SL_ENERGY_REMAIN p) (s.get (R.SL_ENERGY_REMAIN p) - n * level)).set (R.SL_ENERGY_USED p) used
    if room < k then s.ago (back + 125 * (k - 1 - room)) fun s => s.capCut p else s

/-- A window start `back` fine ticks ago, `m` whole windows and then `r` further ticks. A link without carrier needs only the
last of its window starts. -/
def State.linkWindows (s : State) (p : Fin 16) : Nat → Nat → Nat → State
  | 0, r, back => (s.ago back fun s => s.windowStart p).linkRun p r (back - 125 * (r - 1))
  | m + 1, r, back =>
    let s := s.ago back fun s => s.windowStart p
    if s.level p = 0 then s.ago (back - 128000 * (m + 1)) fun s => s.windowStart p
    else (s.linkRun p 1024 (back - 127875)).linkWindows p m r (back - 128000)

/-- `n` fine ticks of the energy book of link `p`, the present instant being their end; `old` is TIME48 before them. -/
def State.linkElapse (s : State) (n old k : Nat) (p : Fin 16) : State :=
  let first := 128000 - old % 128000
  if n < first then s.linkRun p k s.fine
  else
    let m := (n - first) / 128000
    let before := k - 1 - (n - first) / 125
    let r := k - before - 1024 * m
    (s.linkRun p before (n - first + 125)).linkWindows p m r (n - first)

end Sys2Proof.Machine
end

