-- ==== Sys2Proof/Machine/Crypto.lean ====
section
/-! DEFINITION. SHA-256 and the verification of an ECDSA P-256 signature, which the image check of R66 names (FIPS 180-4,
FIPS 186-4). Numbers are naturals; a point of the curve is held in Jacobian coordinates. -/

namespace Sys2Proof.Machine.Crypto

/-! ## SHA-256 -/

/-- The largest `r` below `2 ^ b` beyond `acc` with `r ^ k` at most `n`, by bisection. -/
def rootBelow (k n : Nat) : Nat → Nat → Nat
  | 0, acc => acc
  | b + 1, acc => rootBelow k n b (if (acc + 2 ^ b) ^ k ≤ n then acc + 2 ^ b else acc)

/-- The first 32 bits of the fractional part of the `k`-th root of `n`, for roots below 32. -/
def rootBits (k n : Nat) : Nat := rootBelow k (n * 2 ^ (32 * k)) 37 0 % 2 ^ 32

/-- The primes below a bound, by trial division. -/
def primesBelow (n : Nat) : List Nat :=
  (List.range n).filter fun p => decide (2 ≤ p) && (List.range p).all fun d => decide (d < 2) || p % d != 0

/-- The round constants: from the cube roots of the first 64 primes. -/
def roundConstants : List Nat := (primesBelow 312).map (rootBits 3)

/-- The initial hash value: from the square roots of the first eight primes. -/
def initialHash : List Nat := (primesBelow 20).map (rootBits 2)

def m32 (x : Nat) : Nat := x % 4294967296

/-- Rotates 32 bits to the right. -/
def rotr (n x : Nat) : Nat := x / 2 ^ n + x % 2 ^ n * 2 ^ (32 - n)

/-- Extends the message schedule; the list holds the words newest first. -/
def schedule : Nat → List Nat → List Nat
  | 0, w => w
  | k + 1, w =>
    let a := w.getD 1 0
    let b := w.getD 14 0
    let s1 := rotr 17 a ^^^ rotr 19 a ^^^ (a / 1024)
    let s0 := rotr 7 b ^^^ rotr 18 b ^^^ (b / 8)
    schedule k (m32 (s1 + w.getD 6 0 + s0 + w.getD 15 0) :: w)

/-- One round on the working variables a to h. -/
def round (v : List Nat) (kw : Nat) : List Nat :=
  match v with
  | [a, b, c, d, e, f, g, h] =>
    let t1 := h + (rotr 6 e ^^^ rotr 11 e ^^^ rotr 25 e) + ((e &&& f) ^^^ ((4294967295 - e) &&& g)) + kw
    let t2 := (rotr 2 a ^^^ rotr 13 a ^^^ rotr 22 a) + ((a &&& b) ^^^ (a &&& c) ^^^ (b &&& c))
    [m32 (t1 + t2), a, b, c, m32 (d + t1), e, f, g]
  | v => v

/-- The compression of one block of sixteen words. -/
def compress (h : List Nat) (block : List Nat) : List Nat :=
  let w := (schedule 48 block.reverse).reverse
  let v := (List.zipWith (· + ·) roundConstants w).foldl round h
  List.zipWith (fun a b => m32 (a + b)) h v

/-- The blocks of a list of 32-bit words; the first argument bounds their number. -/
def blocks : Nat → List Nat → List (List Nat)
  | 0, _ => []
  | k + 1, w => if w.isEmpty then [] else w.take 16 :: blocks k (w.drop 16)

/-- The digest of a message of whole 32-bit words, given big-endian, as a number. -/
def sha256 (words : List Nat) : Nat :=
  let len := words.length
  let pad := (15 - (len + 2) % 16) % 16
  let msg := words ++ [0x80000000] ++ List.replicate pad 0 ++ [len * 32 / 4294967296, m32 (len * 32)]
  ((blocks (msg.length / 16 + 1) msg).foldl compress initialHash).foldl (fun acc x => acc * 4294967296 + x) 0

/-! ## P-256 -/

/-- The field prime, the coefficient b, the group order and the base point. -/
def prime : Nat := 0xffffffff00000001000000000000000000000000ffffffffffffffffffffffff
def coefB : Nat := 0x5ac635d8aa3a93e7b3ebbd55769886bc651d06b0cc53b0f63bce3c3e27d2604b
def order : Nat := 0xffffffff00000000ffffffffffffffffbce6faada7179e84f3b9cac2fc632551
def baseX : Nat := 0x6b17d1f2e12c4247f8bce6e563a440f277037d812deb33a0f4a13945d898c296
def baseY : Nat := 0x4fe342e2fe1a7f9b8ee7eb4a7c0f9e162bce33576b315ececbb6406837bf51f5

/-- Differences modulo the field prime. -/
def sub (a b : Nat) : Nat := (a + prime - b % prime) % prime

/-- `a ^ e` modulo `m`, on `k` bits of the exponent. -/
def powMod (m : Nat) : Nat → Nat → Nat → Nat → Nat
  | 0, _, _, acc => acc
  | k + 1, a, e, acc => powMod m k (a * a % m) (e / 2) (if e % 2 = 1 then acc * a % m else acc)

/-- The inverse modulo a prime. -/
def inv (m a : Nat) : Nat := powMod m 256 (a % m) (m - 2) 1

/-- A point in Jacobian coordinates; `z = 0` is the point at infinity. -/
structure Point where
  x : Nat
  y : Nat
  z : Nat
deriving DecidableEq, Repr

/-- Doubling. -/
def Point.double (p : Point) : Point :=
  if p.z = 0 ∨ p.y = 0 then ⟨1, 1, 0⟩
  else
    let yy := p.y * p.y % prime
    let zz := p.z * p.z % prime
    let s := 4 * p.x * yy % prime
    let m := 3 * sub p.x zz * (p.x + zz) % prime
    let x := sub (m * m) (2 * s)
    ⟨x, sub (m * sub s x) (8 * (yy * yy)), 2 * p.y * p.z % prime⟩

/-- Addition. -/
def Point.add (p q : Point) : Point :=
  if p.z = 0 then q
  else if q.z = 0 then p
  else
    let z1 := p.z * p.z % prime
    let z2 := q.z * q.z % prime
    let u1 := p.x * z2 % prime
    let u2 := q.x * z1 % prime
    let s1 := p.y * z2 * q.z % prime
    let s2 := q.y * z1 * p.z % prime
    if u1 = u2 then (if s1 = s2 then p.double else ⟨1, 1, 0⟩)
    else
      let h := sub u2 u1
      let r := sub s2 s1
      let hh := h * h % prime
      let hhh := h * hh % prime
      let v := u1 * hh % prime
      let x := sub (sub (r * r) hhh) (2 * v)
      ⟨x, sub (r * sub v x) (s1 * hhh), h * p.z * q.z % prime⟩

/-- `n` times `p`, on `k` bits of `n`. -/
def mulFrom : Nat → Nat → Point → Point → Point
  | 0, _, _, acc => acc
  | k + 1, n, p, acc => mulFrom k (n / 2) p.double (if n % 2 = 1 then acc.add p else acc)

def mul (n : Nat) (p : Point) : Point := mulFrom 256 n p ⟨1, 1, 0⟩

/-- Is `(x, y)` a valid public key (R66)? Affine coordinates are never the point at infinity. -/
def validKey (x y : Nat) : Bool :=
  decide (x < prime) && decide (y < prime) && decide (y * y % prime = (x * x * x + sub 0 (3 * x) + coefB) % prime)

/-- Does the signature `(r, s)` verify for digest `h` under the key `(x, y)`? -/
def verify (x y h r s : Nat) : Bool :=
  if 0 < r ∧ r < order ∧ 0 < s ∧ s < order then
    let w := inv order s
    let p := (mul (h * w % order) ⟨baseX, baseY, 1⟩).add (mul (r * w % order) ⟨x, y, 1⟩)
    if p.z = 0 then false
    else
      let zi := inv prime p.z
      decide (p.x * (zi * zi % prime) % prime % order = r)
  else false

end Sys2Proof.Machine.Crypto
end

