-- ==== Sys2Proof/Machine/Legs.lean ====
section
/-! DEFINITION. Legs and choke groups: carrier, duty, drive signal, gate pins, choke causes, activation and release. -/

namespace Sys2Proof.Machine

/-! ## Causes (R246), by bit of LEG_STATUS.CAUSE -/

def causeGroup : Nat := 0
def causeFlt : Nat := 1
def causeReset : Nat := 2
def causeHrd : Nat := 3
def causeHold : Nat := 4
def causeDevice : Nat := 5
def causeUnassigned : Nat := 6

def State.leg (s : State) (l : Fin 64) : Leg := s.legs[l]

/-- Changes leg `l`. -/
def State.modLeg (s : State) (l : Fin 64) (f : Leg → Leg) : State := { s with legs := upd s.legs l f }

def State.modCmp (s : State) (c : Fin 64) (f : Cmp → Cmp) : State := { s with cmps := upd s.cmps c f }

/-! ## Carrier and duty (R234 to R236) -/

def State.period (s : State) (l : Fin 64) : Nat := s.get (R.LEG_PER_PERIOD l)

/-- The carrier phase at `t` (R234). -/
def State.phase (s : State) (l : Fin 64) (t : Time) : Nat :=
  (((t.toNat : Int) - s.get (R.LEG_PHS_CPHASE l)) % (s.period l : Int)).toNat

/-- The first instant at or after `t` at which the carrier phase is `p`. -/
def State.phaseAt (s : State) (l : Fin 64) (p : Nat) (t : Time) : Time :=
  t + BitVec.ofNat 48 ((((p : Int) - s.phase l t) % (s.period l : Int)).toNat)

/-- The high length of DUTY mode: clamp, round, then MINP (R235). -/
def dutyLen (period minp : Nat) (v : Word) : Nat :=
  let h := (roundDiv (clampInt v.toInt 0 one32 * period) (2 ^ 32)).toNat
  if 0 < h ∧ h < minp then 0 else if (period : Int) - minp < h ∧ h < period then period else h

/-- The offset of SHIFT mode (R235). -/
def shiftOfs (period : Nat) (v : Word) : Nat :=
  (roundDiv (clampInt v.toInt (-(2 ^ 31)) (2 ^ 31) * period) (2 ^ 32) % (period : Int)).toNat

/-- The start and the length of the high interval for an active value (R236). -/
def State.interval (s : State) (l : Fin 64) (v : Word) : Nat × Nat :=
  let p := s.period l
  if s.flag (R.LEG_CFG_PMODE l) then (shiftOfs p v, p / 2)
  else
    let h := dutyLen p (s.get (R.LEG_MINP_MINP l)) v
    if s.flag (R.LEG_CFG_CMODE l) then ((p - h) / 2, h) else (0, h)

/-- The drive signal X at `t` (R237). -/
def State.drive (s : State) (l : Fin 64) (t : Time) : Bool :=
  let iv := s.interval l (s.leg l).active
  decide (((s.phase l t : Int) - iv.1) % (s.period l : Int) < iv.2)

/-! ## Blanking windows (R245) -/

/-- The edge of a gate pin. -/
inductive PinEdge where
  | ghRise
  | ghFall
  | glEdge
deriving DecidableEq, Repr

/-- Does BLANK_EDGE name this edge? -/
def blankNames (sel : Nat) (ed : PinEdge) : Bool :=
  match ed with
  | .ghRise => sel == 1 || sel == 3
  | .ghFall => sel == 2 || sel == 3
  | .glEdge => sel == 3

/-- Opens, or restarts, the blanking windows that an edge of leg `l` opens (R245). -/
def State.blankOpen (s : State) (l : Fin 64) (ed : PinEdge) : State :=
  forAll 64 (fun c s =>
    let t := s.get (R.CMP_CFG_BLANK_T c)
    if s.get (R.CMP_CFG_BLANK_LEG c) = l.val ∧ t ≠ 0 ∧ blankNames (s.get (R.CMP_CFG_BLANK_EDGE c)) ed = true then
      s.modCmp c fun x => { x with blank := some (s.age + 125 * t) }
    else s) s

/-- Is the blanking window of comparator `c` open? BLANK_EDGE = 0 or BLANK_T = 0 turns blanking off (R245). -/
def State.blanked (s : State) (c : Fin 64) : Bool :=
  match s.cmps[c].blank with
  | some t => decide (s.age < t) && s.get (R.CMP_CFG_BLANK_EDGE c) != 0 && s.get (R.CMP_CFG_BLANK_T c) != 0
  | none => false

/-! ## Gate pins (R239) -/

/-- Sets both gate pins, with the blanking windows that their edges open. -/
def State.setPins (s : State) (l : Fin 64) (gh gl : Bool) : State :=
  let old := s.leg l
  let s := s.modLeg l fun x => { x with gh := gh, gl := gl }
  let s := if gh && !old.gh then s.blankOpen l .ghRise else if !gh && old.gh then s.blankOpen l .ghFall else s
  if gl != old.gl then s.blankOpen l .glEdge else s

/-- Has the interlock at the pads let go since both pins were low (R239)? -/
def State.padFree (s : State) (l : Fin 64) : Bool := decide ((s.leg l).lowSince + 25 ≤ s.age)

/-- Both pins are low, and count as low from now (R249; a change of OUT). -/
def State.pinsLow (s : State) (l : Fin 64) : State :=
  (s.setPins l false false).modLeg l fun g => { g with lowSince := s.age }

/-- Takes the value of X at this instant; a pin falls with its condition, and the follower modes follow (R237, R239). -/
def State.takeX (s : State) (l : Fin 64) : State :=
  let x := s.drive l s.time
  if x = s.flag (R.LEG_STATUS_X l) then s
  else
    let s := (s.setFlag (R.LEG_STATUS_X l) x).modLeg l fun g => { g with xSince := s.age }
    if s.flag (R.LEG_STATUS_CHOKED l) then s
    else match s.get (R.LEG_CFG_OUT l) with
      | 0 => s.setPins l ((s.leg l).gh && x) ((s.leg l).gl && !x)
      | 1 => s.setPins l (x && s.padFree l) false
      | _ => s.setPins l false (x && s.padFree l)

/-- The dead time that a pin waits for: DTH or DTL, at least 25 fine ticks (R239). -/
def State.deadTime (s : State) (l : Fin 64) (x : Bool) : Nat :=
  max 25 (if x then s.get (R.LEG_DT_DTH l) else s.get (R.LEG_DT_DTL l))

/-- The pins of leg `l` once its dead time and the interlock have passed, and the instant at which they have (R239). -/
def State.pinsDue (s : State) (l : Fin 64) : Bool × Bool × Nat :=
  let x := s.flag (R.LEG_STATUS_X l)
  let free := (s.leg l).lowSince + 25
  match s.get (R.LEG_CFG_OUT l) with
  | 0 => (x, !x, max ((s.leg l).xSince + s.deadTime l x) free)
  | 1 => (x, false, free)
  | _ => (false, x, free)

/-! ## Choke causes (R246, R249) -/

/-- Sets a cause of leg `l`: both pins fall. -/
def State.setCause (s : State) (l : Fin 64) (c : Nat) : State :=
  let s := (s.setBit (R.LEG_STATUS_CAUSE l) c true).setFlag (R.LEG_STATUS_CHOKED l) true
  (s.modLeg l fun g => { g with clearedAt := none }).setPins l false false

/-- Clears a cause of leg `l`; the last one to clear starts the wait for the releasing START. -/
def State.clearCause (s : State) (l : Fin 64) (c : Nat) : State :=
  if s.bit (R.LEG_STATUS_CAUSE l) c then
    let s := s.setBit (R.LEG_STATUS_CAUSE l) c false
    if s.get (R.LEG_STATUS_CAUSE l) = 0 then s.modLeg l fun g => { g with clearedAt := some s.age } else s
  else s

/-- Applies `f` to every leg that easel `e` owns. -/
def State.ownedLegs (s : State) (e : Fin 8) (f : Fin 64 → State → State) : State :=
  forAll 64 (fun l s => if s.ownerLeg l = some e then f l s else s) s

/-- Pending and active registers to 0 (R241). -/
def State.clearDuty (s : State) (l : Fin 64) : State :=
  s.modLeg l fun g => { g with pending := 0, active := 0, before := 0, commitAt := none }

/-- A commit writes the pending register (R238). -/
def State.setPending (s : State) (l : Fin 64) (v : Word) : State :=
  s.modLeg l fun g => { g with pending := v, before := g.pending, commitAt := some s.age }

/-! ## Choke groups (R248) -/

/-- Does group `g` contain leg `l`? -/
def State.inGroup (s : State) (g : Fin 16) (l : Fin 64) : Bool :=
  if l.val < 32 then s.bit (R.CG_LO_LEGS_LO g) l.val else s.bit (R.CG_HI_LEGS_HI g) (l.val - 32)

def State.groupActive (s : State) (g : Fin 16) : Bool := s.flag (R.CG_CTRL_ACTIVE g)

/-- Is leg `l` in some active group? -/
def State.inActiveGroup (s : State) (l : Fin 64) : Bool := (fins 16).any fun g => s.groupActive g && s.inGroup g l

/-- Does easel `e` own a leg of group `g`? -/
def State.ownsOfGroup (s : State) (e : Fin 8) (g : Fin 16) : Bool :=
  (fins 64).any fun l => s.inGroup g l && (s.ownerLeg l == some e)

/-- Posts an event of a group to F0 and to each easel that owns a leg of it (R258). -/
def State.postGroup (s : State) (g : Fin 16) (code : Nat) (args : List (BitVec 64)) : State :=
  forAll 8 (fun e s => if s.ownsOfGroup e g then s.postEasel e code args else s) (s.postF0 code args)

/-- The router index of a choke source, for ARG1 of CHOKE (R251, R258). -/
def State.chokeIndex (s : State) (src : ChokeSource) : Nat :=
  match src with
  | .above c => c.val
  | .below c => 0x40 + c.val
  | .flt l => 0x80 + l.val
  | .route r => s.get (R.ROUTE_SRC r)

/-- The path of a choke source, for ARG2 of CHOKE. -/
def chokePath (src : ChokeSource) : Nat :=
  match src with
  | .route _ => 1
  | _ => 0

/-- Makes group `g` active: HIT, HIT_CNT, the GROUP cause of its legs, and CHOKE (R248, R258). -/
def State.groupOn (s : State) (g : Fin 16) (arg1 path : Nat) : State :=
  if s.groupActive g then s
  else
    let s := ((s.setFlag (R.CG_CTRL_ACTIVE g) true).raise (R.CG_CTRL_HIT g)).bumpS (R.CG_CTRL_HIT_CNT g)
    let s := forAll 64 (fun l s => if s.inGroup g l then s.setCause l causeGroup else s) s
    s.postGroup g 0x100 [arg g.val, arg arg1, arg path]

/-- Does group `g` fail to act at this instant, because one of its settings is in error (R407)? -/
def State.groupFails (s : State) (g : Fin 16) : Bool :=
  s.fails (0x8C00 + 0x10 * g.val) || s.fails (0x8C04 + 0x10 * g.val) || s.fails (0x8C08 + 0x10 * g.val)

/-- A source activates group `g`; it holds the group from then on (R248). -/
def State.activate (s : State) (g : Fin 16) (src : ChokeSource) : State :=
  if s.groupFails g then s else
  let s := s.groupOn g (s.chokeIndex src) (chokePath src)
  if s.groups[g].contains src then s else { s with groups := upd s.groups g fun l => l ++ [src] }

/-- Activates every group of a mask. -/
def State.activateMask (s : State) (mask : Nat) (src : ChokeSource) : State :=
  forAll 16 (fun g s => if mask / 2 ^ g.val % 2 = 1 then s.activate g src else s) s

/-- Ends the activity of group `g`: CHOKE_REL, and the GROUP cause of each leg that no other active group holds. -/
def State.groupOff (s : State) (g : Fin 16) : State :=
  let s := { s.setFlag (R.CG_CTRL_ACTIVE g) false with groups := upd s.groups g fun _ => [] }
  let s := s.postGroup g 0x101 [arg g.val, arg (s.get (R.CG_CTRL_HIT_CNT g))]
  forAll 64 (fun l s => if s.inGroup g l && !s.inActiveGroup l then s.clearCause l causeGroup else s) s

/-- The GROUP cause of leg `l` after a change of a group's legs (R246). -/
def State.regroup (s : State) (l : Fin 64) : State :=
  if s.inActiveGroup l then (if s.bit (R.LEG_STATUS_CAUSE l) causeGroup then s else s.setCause l causeGroup)
  else s.clearCause l causeGroup

/-- Asynchronous level of a comparator output (R247): raw, enabled, and not masked by an open window. -/
def State.asyncAbove (s : State) (c : Fin 64) : Bool :=
  s.flag (R.CMP_STATUS_RAW_ABOVE c) && s.flag (R.CMP_CFG_ASYNC_UP c) && !(s.flag (R.CMP_CFG_BLANK_ASYNC c) && s.blanked c)

def State.asyncBelow (s : State) (c : Fin 64) : Bool :=
  s.flag (R.CMP_STATUS_RAW_BELOW c) && s.flag (R.CMP_CFG_ASYNC_DN c) && !(s.flag (R.CMP_CFG_BLANK_ASYNC c) && s.blanked c)

/-- Does the protection setting of comparator `c` fail to act at this instant (R407)? -/
def State.cmpFails (s : State) (c : Fin 64) : Bool :=
  s.fails (0x8800 + 0x10 * c.val) || s.fails (0x8804 + 0x10 * c.val) || s.fails (0x8808 + 0x10 * c.val)

/-- The asynchronous path of comparator `c` at this instant (R247, R248). -/
def State.asyncEval (s : State) (c : Fin 64) : State :=
  if s.cmpFails c then s else
  let s := if s.asyncAbove c then s.activateMask (s.get (R.CMP_GRP_GRP_UP c)) (.above c) else s
  if s.asyncBelow c then s.activateMask (s.get (R.CMP_GRP_GRP_DN c)) (.below c) else s

/-- The asynchronous path of FLT ball `l`: its groups and, with FLT_SELF, its own leg (R246, R247). -/
def State.fltEval (s : State) (l : Fin 64) : State :=
  if s.flag (R.LEG_STATUS_FLT_IN l) && !s.fails (0x8014 + 0x20 * l.val) then
    let s := s.activateMask (s.get (R.LEG_FLT_FLT_GRP l)) (.flt l)
    if s.flag (R.LEG_FLT_FLT_SELF l) && !s.bit (R.LEG_STATUS_CAUSE l) causeFlt then
      (s.setCause l causeFlt).postOwner (s.ownerLeg l) 0x102 [arg l.val, 1]
    else s
  else s

/-- The FLT cause clears where FLT is not asserted or FLT_SELF is 0 (R246). -/
def State.fltClear (s : State) (l : Fin 64) : State :=
  if s.bit (R.LEG_STATUS_CAUSE l) causeFlt && !(s.flag (R.LEG_STATUS_FLT_IN l) && s.flag (R.LEG_FLT_FLT_SELF l)) then
    (s.clearCause l causeFlt).postOwner (s.ownerLeg l) 0x102 [arg l.val, 0]
  else s

/-- A change of the owner field of leg `l` (R241, R246): duty registers to 0, RESET, and UNASSIGNED as the ASSIGNED bit says. -/
def State.legOwnerChanged (s : State) (l : Fin 64) : State :=
  let s := (s.clearDuty l).setCause l causeReset
  match s.ownerLeg l with
  | some _ => s.clearCause l causeUnassigned
  | none => s.setCause l causeUnassigned

/-! ## Thresholds and raw outputs (R243, R244); voltages in units of 2^-9 mV, in which V_FS ÷ 4,096 is 375 -/

/-- The settling time of a threshold DAC in coarse ticks (R244). -/
def settleTicks (res : Nat) : Nat := if res = 0 then 2 else if res = 1 then 4 else if res = 2 then 12 else 40

/-- The bits of a code that the DAC uses: 6, 8, 10 or 12 (R244). -/
def usedCode (res code : Nat) : Nat := code / 2 ^ (6 - 2 * res) * 2 ^ (6 - 2 * res)

/-- HYS: 0, 10, 20 or 40 mV. -/
def hysteresis (hys : Nat) : Int := if hys = 0 then 0 else if hys = 1 then 5120 else if hys = 2 then 10240 else 20480

/-- Is the DAC of comparator `c` settling? -/
def State.settling (s : State) (c : Fin 64) : Bool :=
  match s.cmps[c].settle with
  | some t => decide (s.age < t)
  | none => false

/-- The threshold of comparator `c` for a code: code × V_FS ÷ 4,096, with the offset of the comparator and the error of the DAC
within the bounds of R397 (±3 mV, ±1 LSB); while the DAC settles, wherever it stands. -/
def State.threshold (s : State) (c : Fin 64) (code : Nat) : Int :=
  let u := usedCode (s.get (R.CMP_CFG_RES c)) code
  if s.settling c then Config.movingDac (2 * s.freeCount + code % 2)
  else 375 * u + clampInt (Config.cmpOffset c) (-1536) 1536 + clampInt (Config.dacError u) (-375) 375

/-- The hysteresis of comparator `c`, in error by at most 30 % (R397). -/
def State.hysOf (s : State) (c : Fin 64) : Int :=
  let h := hysteresis (s.get (R.CMP_CFG_HYS c))
  h + clampInt (Config.cmpHysError c) (-(3 * h / 10)) (3 * h / 10)

/-- The voltage that comparator `c` watches. -/
def State.cmpInput (s : State) (c : Fin 64) : Int := s.ain[Fin.ofNat 48 (s.get (R.CMP_CFG_AIN c))]

/-- What a raw output becomes: the set condition first, then the clear condition, else it stays (R243). -/
def rawNext (old sets clears : Bool) : Bool := sets || (old && !clears)

/-- The raw outputs of comparator `c` follow its input and thresholds, and the asynchronous path follows them (R243, R247). -/
def State.rawEval (s : State) (c : Fin 64) : State :=
  let v := s.cmpInput c
  let up := s.threshold c (s.get (R.CMP_THR_UPPER c))
  let lo := s.threshold c (s.get (R.CMP_THR_LOWER c))
  let h := s.hysOf c
  let above := rawNext (s.flag (R.CMP_STATUS_RAW_ABOVE c)) (decide (up < v)) (decide (v < up - h))
  let below := rawNext (s.flag (R.CMP_STATUS_RAW_BELOW c)) (decide (v < lo)) (decide (lo + h < v))
  let s := if s.settling c then s.draw else s
  ((s.setFlag (R.CMP_STATUS_RAW_ABOVE c) above).setFlag (R.CMP_STATUS_RAW_BELOW c) below).asyncEval c

/-- A change of either code starts the settling time (R244). -/
def State.codeChanged (s : State) (c : Fin 64) : State :=
  let n := settleTicks (s.get (R.CMP_CFG_RES c))
  let s := (s.setFlag (R.CMP_STATUS_SETTLING c) true).modCmp c fun x => { x with settle := some (s.age + 125 * n) }
  s.rawEval c

/-- Sets a threshold code. -/
def State.setCode (s : State) (c : Fin 64) (upper : Bool) (w : Nat) : State :=
  let f := if upper then R.CMP_THR_UPPER c else R.CMP_THR_LOWER c
  if s.get f = w then s else (s.set f w).codeChanged c

end Sys2Proof.Machine
end

