-- ==== Sys2Proof/Machine/Slots.lean ====
section
/-! DEFINITION. Slot words: their fields (R64), the map of the operand space (R91), and which slot words Kelkor may produce
(R88, R89, R91). -/

namespace Sys2Proof.Machine

/-- A slot word, by fields (R64). -/
structure Slot where
  op : Nat
  dst : Nat
  a : Nat
  b : Nat
  md : Nat
deriving DecidableEq, Repr

/-- The fields of a slot word. -/
def slotOf (w : Nat) : Slot :=
  { op := bits w 0 8, dst := bits w 8 18, a := bits w 26 18, b := bits w 44 18, md := bits w 62 2 }

/-! ## Opcodes (R88) -/

def opNop : Nat := 0x01
def opMov : Nat := 0x02
def opAdd : Nat := 0x03
def opSub : Nat := 0x04
def opMin : Nat := 0x05
def opMax : Nat := 0x06
def opAbs : Nat := 0x07
def opNeg : Nat := 0x08
def opClamp : Nat := 0x09
def opSel : Nat := 0x0A
def opCmplt : Nat := 0x0B
def opCmple : Nat := 0x0C
def opShl : Nat := 0x10
def opShr : Nat := 0x11
def opLdi : Nat := 0x18
def opMacz : Nat := 0x20
def opMac : Nat := 0x21
def opMsu : Nat := 0x22
def opAccst : Nat := 0x23
def opMuls32 : Nat := 0x24
def opInteg : Nat := 0x28
def opSin : Nat := 0x30
def opCos : Nat := 0x31
def opChk : Nat := 0x38

/-! ## Operand regions (R91) -/

def stateBase : Nat := 0x20000
def shadowBase : Nat := 0x21000
def scratchBase : Nat := 0x22000
def predBase : Nat := 0x24000
def landBase : Nat := 0x24040
def dutyBase : Nat := 0x24100
def sysinBase : Nat := 0x24200
def outsBase : Nat := 0x24300

/-- The assigned SYSIN words. -/
def sysinAssigned (a : Nat) : Bool := within a 0x24200 0x2422A || within a 0x24230 0x24237 || within a 0x24240 0x2425F

/-- The assigned OUTS words. -/
def outsAssigned (a : Nat) : Bool :=
  within a 0x24300 0x24382 || a == 0x2438F || within a 0x24390 0x24395 || within a 0x243B0 0x243B3
    || within a 0x243C0 0x243C4 || within a 0x243C8 0x243DF

/-- May a slot read the address? -/
def readable (a : Nat) : Bool :=
  decide (a < 0x24080) || within a 0x24100 0x2413F || sysinAssigned a || outsAssigned a

/-- May a slot write the address? -/
def writable (a : Nat) : Bool := within a 0x21000 0x2403F || within a 0x24100 0x2413F || outsAssigned a

/-- Is the slot word one that the tables allow, in a run of segment `seg` (R88, R89, R91)? -/
def slotOk (seg : Nat) (w : Slot) : Bool :=
  let ab := readable w.a && readable w.b
  let body :=
    if w.op = opNop then w.dst == 0 && w.a == 0 && w.b == 0
    else if w.op = opMov ∨ w.op = opAbs ∨ w.op = opNeg ∨ w.op = opSin ∨ w.op = opCos then readable w.a && writable w.dst
    else if w.op = opAdd ∨ w.op = opSub ∨ w.op = opMin ∨ w.op = opMax ∨ w.op = opSel ∨ w.op = opMuls32 then ab && writable w.dst
    else if w.op = opClamp then ab && readable (w.b + 1) && writable w.dst
    else if w.op = opCmplt ∨ w.op = opCmple then ab && w.dst == 0
    else if w.op = opShl ∨ w.op = opShr then readable w.a && decide (w.b ≤ 39) && writable w.dst
    else if w.op = opLdi then writable w.dst
    else if w.op = opMacz ∨ w.op = opMac ∨ w.op = opMsu then ab
    else if w.op = opAccst then decide (w.b ≤ 87) && writable w.dst
    else if w.op = opInteg then ab && readable (w.b + 1) && within w.dst shadowBase 0x21FFF
    else if w.op = opChk then ab && readable w.dst && seg == 2
    else false
  body && (w.op == opLdi || decide (w.md ≤ 1))

end Sys2Proof.Machine
end

