-- ==== Sys2Proof/Machine/Image.lean ====
section
/-! DEFINITION. Schedule images: their layout, signature, admission, load and swap (The Kelkor Schedule Contract). -/

namespace Sys2Proof.Machine

/-- A half of the schedule store: 64-bit words from offset 0. -/
abbrev Half := List (BitVec 64)

/-- The half named by a half number. -/
def ImageUnit.half (u : ImageUnit) (h : Bool) : Half := if h then u.half1 else u.half0

/-! ## Fields (R64) -/

/-- The byte at an offset. -/
def Half.byte (h : Half) (o : Nat) : Nat := (h.getD (o / 8) 0).toNat / 2 ^ (8 * (o % 8)) % 256

/-- A little-endian field of `n` bytes (R14). -/
def Half.le (h : Half) (o : Nat) : Nat → Nat
  | 0 => 0
  | n + 1 => h.byte o + 256 * Half.le h (o + 1) n

/-- A big-endian field of `n` bytes. -/
def Half.be (h : Half) (o n : Nat) : Nat := (List.range n).foldl (fun acc i => acc * 256 + h.byte (o + i)) 0

def Half.totalLen (h : Half) : Nat := h.le 0x08 4
def Half.id (h : Half) : Nat := h.le 0x0C 4
def Half.pred (h : Half) : Nat := h.le 0x10 4
def Half.tileMask (h : Half) : Nat := h.le 0x14 2
def Half.easelMask (h : Half) : Nat := h.byte 0x16
def Half.bodyOff (h : Half) : Nat := h.le 0x20 4
def Half.bodyWords (h : Half) : Nat := h.le 0x24 4

/-- Has the image an entry for easel `e`? -/
def Half.hasEasel (h : Half) (e : Fin 8) : Bool := h.easelMask / 2 ^ e.val % 2 == 1

/-- The offset of the entry of easel `e`: normal, or limp. -/
def Half.entry (h : Half) (e : Fin 8) (limp : Bool) : Nat :=
  let o := h.le 0x18 4 + 64 * e.val
  if limp then h.le (o + 0x20) 4 else o

/-! Fields of the entry at offset `o`. -/
def Half.entPeriod (h : Half) (o : Nat) : Nat := h.le o 4
def Half.huPre (h : Half) (o : Nat) : Nat := h.le (o + 0x04) 4
def Half.huCheck (h : Half) (o : Nat) : Nat := h.le (o + 0x08) 4
def Half.huRepaint (h : Half) (o : Nat) : Nat := h.le (o + 0x0C) 4
def Half.intakeK (h : Half) (o : Nat) : Nat := h.byte (o + 0x10)
def Half.intakeM (h : Half) (o : Nat) : Nat := h.byte (o + 0x11)
def Half.slipLimit (h : Half) (o : Nat) : Nat := h.byte (o + 0x12)
def Half.limpKind (h : Half) (o : Nat) : Nat := h.byte (o + 0x13)
def Half.critTile (h : Half) (o : Nat) : Nat := h.byte (o + 0x14)
def Half.nInputs (h : Half) (o : Nat) : Nat := h.byte (o + 0x15)
def Half.nRamp (h : Half) (o : Nat) : Nat := h.byte (o + 0x16)
def Half.spec (h : Half) (o : Nat) : Bool := h.byte (o + 0x17) == 1
def Half.hrdHold (h : Half) (o : Nat) : Nat := h.byte (o + 0x24)

/-- Offset of input entry `i` of the entry at `o`. -/
def Half.input (h : Half) (o i : Nat) : Nat := h.le (o + 0x18) 4 + 16 * i
def Half.inTag (h : Half) (o i : Nat) : BitVec 16 := BitVec.ofNat 16 (h.le (h.input o i) 2)
def Half.inDeadline (h : Half) (o i : Nat) : Nat := h.le (h.input o i + 4) 4
def Half.inTol (h : Half) (o i : Nat) : Nat := h.le (h.input o i + 8) 8 % 2 ^ 40

/-- The largest DEADLINE of the entry (R73). -/
def Half.lastDeadline (h : Half) (o : Nat) : Nat :=
  (List.range (h.nInputs o)).foldl (fun m i => max m (h.inDeadline o i)) 0

/-- The ramp entries of the entry at `o`: leg, TARGET, STEP (R82). -/
def Half.ramp (h : Half) (o : Nat) : List (Fin 64 × Word × Word) :=
  (List.range (h.nRamp o)).map fun i =>
    let r := h.le (o + 0x1C) 4 + 24 * i
    (⟨h.byte r % 64, Nat.mod_lt _ (by decide)⟩, BitVec.ofNat 40 (h.le (r + 8) 8), BitVec.ofNat 40 (h.le (r + 16) 8))

/-! ## Runs -/

/-- Word `i` of the body. -/
def Half.body (h : Half) (i : Nat) : Nat := (h.getD (h.bodyOff / 8 + i) 0).toNat

/-! Fields of the run header at body word `i`. -/
def Half.runEasel (h : Half) (i : Nat) : Nat := bits (h.body i) 8 3
def Half.runLimp (h : Half) (i : Nat) : Bool := bits (h.body i) 11 1 == 1
def Half.runSeg (h : Half) (i : Nat) : Nat := bits (h.body i) 12 3
def Half.runPrio (h : Half) (i : Nat) : Nat := bits (h.body i) 16 8
def Half.runLen (h : Half) (i : Nat) : Nat := bits (h.body i) 24 18

/-- The header indices of `n` runs that follow one another from body word `i`. -/
def Half.runsFrom (h : Half) : Nat → Nat → List Nat
  | 0, _ => []
  | n + 1, i => i :: Half.runsFrom h n (i + 1 + h.runLen i)

/-- The header indices of the runs of tile `t`. -/
def Half.tileRuns (h : Half) (t : Fin 16) : List Nat :=
  if h.tileMask / 2 ^ t.val % 2 = 1 then h.runsFrom (h.le (h.le 0x1C 4 + 16 * t.val + 4) 2) (h.le (h.le 0x1C 4 + 16 * t.val) 4)
  else []

/-- The header indices of every run of the image. -/
def Half.allRuns (h : Half) : List Nat := (fins 16).flatMap fun t => h.tileRuns t

/-- The runs of one segment of an easel's normal or limp pass. -/
def Half.segRuns (h : Half) (e : Fin 8) (limp : Bool) (seg : Nat) : List Nat :=
  h.allRuns.filter fun i => h.runEasel i == e.val && h.runLimp i == limp && h.runSeg i == seg

/-- The slot words of tile `c` in the runs of some segments of an easel's normal or limp pass (R78). -/
def Half.segWords (h : Half) (e : Fin 8) (limp : Bool) (c : Nat) (segs : List Nat) : Nat :=
  ((h.tileRuns (Fin.ofNat 16 c)).filter fun i => h.runEasel i == e.val && h.runLimp i == limp && segs.contains (h.runSeg i)).foldl
    (fun n i => n + h.runLen i) 0

/-! ## Signature (R66) -/

/-- Big-endian 32-bit words of a byte range. -/
def Half.words32 (h : Half) (o n : Nat) : List Nat := (List.range n).map fun i => h.be (o + 4 * i) 4

/-- Is the signature of the image valid, with these fuses? -/
def signatureValid (f : Fuses) (fuseErr : Bool) (h : Half) : Bool :=
  let o := h.totalLen - 136
  let slot := h.byte o
  if g : slot < 4 then
    let k : Fin 4 := ⟨slot, g⟩
    !fuseErr && f.prov.getLsbD slot && !f.revoked.getLsbD slot
      && Crypto.sha256 (h.words32 (o + 8) 16) == (f.digests[k]).toNat
      && Crypto.validKey (h.be (o + 0x08) 32) (h.be (o + 0x28) 32)
      && Crypto.verify (h.be (o + 0x08) 32) (h.be (o + 0x28) 32) (Crypto.sha256 (h.words32 0 (o / 4))) (h.be (o + 0x48) 32)
          (h.be (o + 0x68) 32)
  else false

/-! ## Admission (R73 to R77) -/

/-- Worst-case tempo, U4.12 (R74). -/
def worstTempo : Nat := 0x19DC

/-- The admission inequality of an entry at tempo `t`, exactly, in units of 1/409,600 ns. -/
def Half.fits (h : Half) (o t : Nat) : Bool :=
  let ns (n : Nat) := n * 409600
  let ticks (n : Nat) := n * 8 * 4096
  decide (max (ns 40 + h.huPre o * t * 100) (ticks (h.lastDeadline o)) + (h.huCheck o + h.huRepaint o) * t * 100 + ns 40
    ≤ ticks (h.entPeriod o))

/-- Is easel `e` admitted against the image at tempo `t`, with this DB_PERIOD (R73)? -/
def Half.admits (h : Half) (e : Fin 8) (period t : Nat) : Bool :=
  let o := h.entry e false
  let ok (o : Nat) := h.entPeriod o == period && h.fits o t
  ok o && (h.limpKind o != 1 || ok (h.entry e true))

/-- The live admission tempo (R75): none where the history is short or holds a stopped window. -/
def liveTempo (tempos : List (BitVec 16)) (margin : Nat) : Option Nat :=
  if tempos.length < 64 ∨ tempos.contains 0xFFFF = true then none
  else some (((tempos.foldl (fun m x => max m x.toNat) 0) * (256 + margin) + 255) / 256)

/-- The admission of easel `e` against an image half, and the tempo used (0: worst case). -/
def State.admission (s : State) (e : Fin 8) (h : Half) : Bool × Nat :=
  let period := s.get (R.DB_PERIOD_PERIOD e)
  if s.flag (R.SCHED_ADM_MODE e) then
    match liveTempo s.tb.tempos (s.get (R.SCHED_ADM_MARGIN e)) with
    | some t => (h.hasEasel e && h.admits e period t, t)
    | none => (false, 0xFFFF)
  else (h.hasEasel e && h.admits e period worstTempo, 0)

/-! ## Which half serves an easel (R72) -/

def State.activeHalf (s : State) : Bool := s.flag R.IMG_STATUS_ACTIVE_HALF
def State.swapPending (s : State) : Bool := s.flag R.IMG_STATUS_SWAP_PENDING

/-- The half from which the runs of easel `e` come. -/
def State.halfNo (s : State) (e : Fin 8) : Bool :=
  if s.swapPending && s.img.changed.getLsbD e.val then !s.activeHalf else s.activeHalf

/-- Is there an image that serves easel `e`? -/
def State.hasImage (s : State) (e : Fin 8) : Bool :=
  (s.flag R.IMG_STATUS_ACTIVE_VALID || (s.swapPending && s.img.changed.getLsbD e.val)) && (s.img.half (s.halfNo e)).hasEasel e

def State.halfOf (s : State) (e : Fin 8) : Half := s.img.half (s.halfNo e)

/-- The offset of the entry that serves easel `e`: the limp entry in LIMP_PASS. DESIGN CHOICE: an easel in LIMP_PASS that changes
to an image whose entry has LIMP_KIND = 0 stays in LIMP_PASS, with the entry at LIMP_OFF as the image has it; R72 names no such
case (log entry 91). -/
def State.entryOf (s : State) (e : Fin 8) : Nat := (s.halfOf e).entry e (s.limp e == limpPass)

/-! ## Load (R71) -/

/-- Ends a load with a RESULT: BUSY clears, the mask is set, IMAGE_DONE is posted (R71). -/
def State.loadEnd (s : State) (result mask : Nat) : State :=
  let s := { s with img := { s.img with stage := .idle, armed := result == 1 } }
  let s := ((s.setFlag R.IMG_STATUS_BUSY false).set R.IMG_STATUS_RESULT result).set R.IMG_STATUS_ADM_FAIL_MASK mask
  let s := s.set R.IMG_SHADOW_ID_ID (if result = 1 then (s.img.half (!s.activeHalf)).id else 0)
  s.postF0 0x10 [arg result, arg mask, arg (s.get R.IMG_SHADOW_ID_ID)]

/-- Is the image store usable: no fuse error, no self-test failure of the schedule store (R371, R372)? -/
def State.loadAllowed (s : State) : Bool := !s.flag R.BOOT_STATUS_FUSE_ERR && !s.flag R.BOOT_STATUS_SCHED_FAIL

/-- R71, R410: a write of LOAD = 1. Ignored while BUSY or SWAP_PENDING; a LOAD that is taken disarms the shadow. -/
def execImageLoad (a : Agent) (s : State) : Host.Outcome State Fault Refusal :=
  if s.reaches a && s.loadAllowed && !s.flag R.IMG_STATUS_BUSY && !s.swapPending then
    let src := BitVec.ofNat 64 (s.get2 R.IMG_SRC_HI_SRC_HI R.IMG_SRC_LO_SRC_LO)
    let s := { s with img := { s.img with stage := .dma, src := src, len := s.get R.IMG_LEN_LEN, armed := false } }
    .next ((s.setFlag R.IMG_STATUS_BUSY true).set R.IMG_SHADOW_ID_ID 0)
  else .next s

/-- The mask of easels of the image that fail admission. -/
def State.admFailMask (s : State) (h : Half) : Nat :=
  (fins 8).foldl (fun m e => if h.hasEasel e && !(s.admission e h).1 then m + 2 ^ e.val else m) 0

/-- R66, R71, R73: verification and admission of the loaded image end. DESIGN CHOICE: SCHED_STATUS.ADM_OK keeps its value: it
changes at RUN alone (log entry 92). -/
def execImageVerifyComplete (s : State) : Host.Outcome State Fault Refusal :=
  match s.img.stage with
  | .verify =>
    let h := s.img.half (!s.activeHalf)
    if !signatureValid s.fuses (s.flag R.BOOT_STATUS_FUSE_ERR) h then .next (s.loadEnd 2 0)
    else
      let mask := s.admFailMask h
      .next (s.loadEnd (if mask = 0 then 1 else 3) mask)
  | _ => .next s

/-! ## Swap (R72, R410) -/

/-- Are `n` bytes from an offset 0, as R16 asks of a reserved field? -/
def Half.zeros (h : Half) (o n : Nat) : Bool := (List.range n).all fun i => h.byte (o + i) == 0

/-- Does the table or the body of `n` bytes at `o` start on an 8-byte boundary and lie inside the file (R64)? -/
def Half.inside (h : Half) (o n : Nat) : Bool := decide (o % 8 = 0) && decide (o + n ≤ h.totalLen)

/-- Is a 40-bit field filled to 64 bits as R15 asks: with copies of bit 39 for a signed format, else with zeros? -/
def filledAs (signed : Bool) (v : Nat) : Bool := v / 2 ^ 40 == if signed && v.testBit 39 then 2 ^ 24 - 1 else 0

/-- Does input entry `i` keep R64 and R15? TOL is unsigned. -/
def Half.inputOk (h : Half) (o i : Nat) : Bool :=
  h.zeros (h.input o i + 2) 2 && decide (h.inDeadline o i < h.entPeriod o) && filledAs false (h.le (h.input o i + 8) 8)

/-- Does ramp entry `i` keep R64 and R15? TARGET is signed (R235), STEP unsigned. -/
def Half.rampOk (h : Half) (o i : Nat) : Bool :=
  let r := h.le (o + 0x1C) 4 + 24 * i
  decide (h.byte r ≤ 63) && h.zeros (r + 1) 7 && filledAs true (h.le (r + 8) 8) && filledAs false (h.le (r + 16) 8)

/-- Does the easel entry at `o`, normal or limp, keep R64? -/
def Half.entryOk (h : Half) (o : Nat) (limp : Bool) : Bool :=
  h.inside o 64 && decide (1 ≤ h.intakeK o) && decide (h.intakeK o ≤ 64) && decide (1 ≤ h.intakeM o)
    && decide (h.intakeM o ≤ 16) && decide (1 ≤ h.slipLimit o) && decide (h.limpKind o ≤ (if limp then 0 else 1))
    && decide (h.critTile o ≤ 15) && decide (h.nInputs o ≤ 64) && decide (h.nRamp o ≤ 16) && decide (h.byte (o + 0x17) ≤ 1)
    && (h.limpKind o == 1 || h.le (o + 0x20) 4 == 0) && h.zeros (o + 0x25) 27
    && h.inside (h.le (o + 0x18) 4) (16 * h.nInputs o) && h.inside (h.le (o + 0x1C) 4) (24 * h.nRamp o)
    && ((List.range (h.nInputs o)).all fun i => h.inputOk o i) && (List.range (h.nRamp o)).all fun i => h.rampOk o i

/-- Does the tile entry of tile `t` keep R64: ten bytes of 0, and all zero where the tile is absent from TILE_MASK? -/
def Half.tileOk (h : Half) (t : Fin 16) : Bool :=
  let o := h.le 0x1C 4 + 16 * t.val
  h.zeros (o + 6) 10 && (h.tileMask / 2 ^ t.val % 2 == 1 || h.zeros o 6)

/-- Do the run header at body word `i` and its slot words keep R64, R88, R89 and R91? -/
def Half.runOk (h : Half) (i : Nat) : Bool :=
  decide (i + 1 + h.runLen i ≤ h.bodyWords) && decide (h.runSeg i ≤ 3) && decide (1 ≤ h.runLen i) && bits (h.body i) 0 8 == 0
    && bits (h.body i) 15 1 == 0 && bits (h.body i) 42 22 == 0
    && (List.range (h.runLen i)).all fun j => slotOk (h.runSeg i) (slotOf (h.body (i + 1 + j)))

/-- Does no run of a list of header indices overlap another? -/
def Half.apart (h : Half) : List Nat → Bool
  | [] => true
  | i :: t => (t.all fun j => decide (i + 1 + h.runLen i ≤ j) || decide (j + 1 + h.runLen j ≤ i)) && Half.apart h t

/-- Does the image keep the layout, the fillings and the ranges of R64, as far as they can be read from it (R84)? -/
def Half.formed (h : Half) (len : Nat) : Bool :=
  h.le 0 4 == 0x1A49534B && h.byte 4 == 1 && h.le 6 2 == 0x6440 && h.totalLen == len && decide (h.totalLen % 8 = 0)
    && decide (h.totalLen ≤ 2097152) && h.id != 0 && h.inside (h.le 0x18 4) 512 && h.inside (h.le 0x1C 4) 256
    && h.inside h.bodyOff (8 * h.bodyWords) && h.zeros 5 1 && h.zeros 0x17 1 && h.zeros 0x2C 20
    && h.zeros (h.totalLen - 136 + 1) 7 && decide (h.byte (h.totalLen - 136) ≤ 3)
    && (fins 8).all (fun e => !h.hasEasel e || (h.entryOk (h.entry e false) false
        && (h.limpKind (h.entry e false) != 1 || h.entryOk (h.entry e true) true)))
    && (fins 16).all (fun t => h.tileOk t) && h.allRuns.all (fun i => h.runOk i) && h.apart h.allRuns

/-- The easels that an image error reaches: every easel in either image's EASEL_MASK or with runs in it (R84). -/
def State.imageEasels (s : State) : List (Fin 8) :=
  (fins 8).filter fun e => [s.img.half0, s.img.half1].any fun (h : Half) => h.hasEasel e || h.allRuns.any fun i => h.runEasel i == e.val

/-- Is this SWAP a host error of R84: predecessor, running easels left out, or image content? DESIGN CHOICE: PRED_IMAGE_ID = 0
over an existing active image is one even while no easel runs, by the first clause of that row of R84; the header row of R64 could
be read as allowing it (log entry 95). -/
def State.swapError (s : State) : Bool :=
  let h := s.img.half (!s.activeHalf)
  let running := (fins 8).any fun e => s.run e
  (h.pred != s.get R.IMG_ACTIVE_ID_ID || (h.pred == 0 && running))
    || ((fins 8).any fun e => s.run e && !h.hasEasel e) || !h.formed s.img.len

/-- Every easel of the new image has changed: the halves exchange roles, SWAP_DONE (R72, R410). -/
def State.swapDone (s : State) : State :=
  let new := (s.img.half (!s.activeHalf)).id
  let old := s.get R.IMG_ACTIVE_ID_ID
  let s := s.setFlag R.IMG_STATUS_ACTIVE_HALF (!s.activeHalf)
  let s := ((s.setFlag R.IMG_STATUS_SWAP_PENDING false).setFlag R.IMG_STATUS_ACTIVE_VALID true).set R.IMG_ACTIVE_ID_ID new
  let s := { s.set R.IMG_SHADOW_ID_ID 0 with img := { s.img with armed := false, reached := false, changed := 0 } }
  s.postF0 0x11 [arg new, arg old]

/-- Completes the swap once every easel of the new image's mask has changed. -/
def State.swapCheck (s : State) : State :=
  let mask := (s.img.half (!s.activeHalf)).easelMask
  if s.swapPending && s.img.reached && (mask &&& s.img.changed.toNat) == mask then s.swapDone else s

/-- Easel `e` changes to the new image, if a SWAP acts on it: if it is in the EASEL_MASK of that image (R72). -/
def State.swapEasel (s : State) (e : Fin 8) : State :=
  if (s.img.half (!s.activeHalf)).hasEasel e then
    { s with img := { s.img with changed := s.img.changed ||| BitVec.ofNat 8 (2 ^ e.val) } }
  else s

/-- SWAP_TIME is reached: stopped easels, and easels in HRD or HRD_DONE, change (R72). -/
def State.swapReached (s : State) : State :=
  let s := { s with img := { s.img with reached := true } }
  let s := forAll 8 (fun e s => if !s.run e || s.inHrd e then s.swapEasel e else s) s
  s.swapCheck

/-- An easel that stops, or enters HRD, after SWAP_TIME was reached changes at once (R72). -/
def State.swapStopped (s : State) (e : Fin 8) : State :=
  if s.swapPending && s.img.reached && (!s.run e || s.inHrd e) then (s.swapEasel e).swapCheck else s

def State.swapTime (s : State) : Time := BitVec.ofNat 48 (s.get2 R.SWAP_TIME_HI_TIME_HI R.SWAP_TIME_LO_TIME_LO)

/-- R410: a write of SWAP = 1. It acts only on an armed shadow with no swap pending; a SWAP_TIME that lies before the write
is reached at the write (R72). -/
def execSwap (a : Agent) (s : State) : Host.Outcome State Fault Refusal :=
  if s.reaches a && s.img.armed && !s.swapPending then
    let bad := s.swapError
    let es := s.imageEasels
    let s := s.setFlag R.IMG_STATUS_SWAP_PENDING true
    let s := { s with img := { s.img with reached := false, changed := 0 } }
    let s := if timeLe s.swapTime s.time then s.swapReached else s
    .next (if bad then s.hostErrors es else s)
  else .next s

end Sys2Proof.Machine
end

