-- ==== Sys2Proof/Machine/Memory.lean ====
section
/-! DEFINITION. Easel memory: the SECDED code of physical words, vacancy, reads and writes of bank, state file and pass-local
words, and the transparent test. -/

namespace Sys2Proof.Machine

/-! ## The check code (R117) -/

/-- The positions 3 to 47 that are not powers of two, in order. -/
def codePositions : List Nat :=
  [3, 5, 6, 7, 9, 10, 11, 12, 13, 14, 15, 17, 18, 19, 20, 21, 22, 23, 24, 25, 26, 27, 28, 29, 30, 31, 33, 34, 35, 36, 37, 38,
   39, 40, 41, 42, 43, 44, 45, 46, 47]

/-- The XOR of the positions of the bits of `v` that are 1: CHK[5:0] as a number. -/
def syndromeFrom (v : Nat) : List Nat → Nat
  | [] => 0
  | p :: ps => (if v % 2 = 1 then p else 0) ^^^ syndromeFrom (v / 2) ps

/-- The parity of the low `n` bits. -/
def parity : Nat → Nat → Nat
  | 0, _ => 0
  | n + 1, v => (v % 2 + parity n (v / 2)) % 2

/-- CHK[6:0] of the 41-bit vector. -/
def checkBits (v : Nat) : Nat :=
  let c := syndromeFrom v codePositions
  c + 64 * ((parity 41 v + parity 6 c) % 2)

/-- The physical word of a value and a vacancy bit. -/
def encodeWord (d : Word) (vac : Bool) : Phys :=
  BitVec.ofNat 48 (d.toNat + checkBits (d.toNat + vac.toNat * 2 ^ 40) * 2 ^ 40 + vac.toNat * 2 ^ 47)

/-- A word cleared to vacant (R118): 0xAF00_0000_0000. -/
def vacantPhys : Phys := 0xAF0000000000

/-- The value that a read of a vacant word returns (R102, R120). -/
def vacantWord : Word := 0x8000000000

/-- What a read of a physical word finds. -/
inductive Decoded where
  | clean (d : Word) (vac : Bool)
  | fixed (d : Word) (vac : Bool)
  | lost
deriving DecidableEq, Repr

/-- The 41-bit vector of a physical word. -/
def physVector (p : Phys) : Nat := p.toNat % 2 ^ 40 + p.toNat / 2 ^ 47 * 2 ^ 40

/-- Decodes a physical word: single errors corrected, double errors found (R117). -/
def decodeWord (p : Phys) : Decoded :=
  let v := physVector p
  let stored := p.toNat / 2 ^ 40 % 128
  let syn := syndromeFrom v codePositions ^^^ (stored % 64)
  let odd := (parity 41 v + parity 7 stored) % 2 = 1
  let out (v : Nat) (f : Word → Bool → Decoded) : Decoded := f (BitVec.ofNat 40 v) (v / 2 ^ 40 == 1)
  if ¬ odd then if syn = 0 then out v .clean else .lost
  else if syn = 0 ∨ (syn &&& (syn - 1)) = 0 then out v .fixed
  else match codePositions.findIdx? (· == syn) with
    | some i => out (v ^^^ 2 ^ i) .fixed
    | none => .lost

/-! ## The save buffer (R124) -/

/-- Is the word of a region under test served from the save buffer: saved, and not yet restored? -/
def BTest.serves (b : BTest) (a : Nat) : Bool :=
  let sub : Fin 16 := ⟨a % 16, Nat.mod_lt _ (by decide)⟩
  let j := a / 16 % 4
  a / 64 == b.next && j < b.steps[sub] && b.steps[sub] ≤ 44 + j

/-- Does a parked region hold the address (R127)? -/
def BTest.holds (b : BTest) (a : Nat) : Bool := b.parked.any fun p => p.1 / 64 == a / 64

/-- The physical word at an operand address as a reader finds it. -/
def Easel.physAt (z : Easel) (busy : Bool) (a : Nat) : Phys :=
  if a < 0x20000 ∧ z.btest.holds a = true then Cells.get vacantPhys a z.btest.parked
  else if a < 0x20000 ∧ busy = true ∧ z.btest.serves a = true then Cells.get vacantPhys a z.btest.buf
  else Cells.get vacantPhys a z.mem

def State.testBusy (s : State) (e : Fin 8) : Bool := s.flag (R.BTEST_STATUS_BUSY e)

/-- Writes a physical word into the array. -/
def State.putArray (s : State) (e : Fin 8) (a : Nat) (p : Phys) : State :=
  s.modEz e fun z => { z with mem := Cells.put vacantPhys a p z.mem }

/-- Writes a physical word where readers will find it: the array, the words of a parked region, or the buffer that serves the
word; after RESTORE both array and buffer, so that VERIFY compares the word as written (log entry 21). -/
def State.putPhys (s : State) (e : Fin 8) (a : Nat) (p : Phys) : State :=
  let z := s.ez e
  if a < 0x20000 ∧ z.btest.holds a = true then
    s.modEz e fun z =>
      { z with btest := { z.btest with parked := Cells.insert a p (Cells.erase a z.btest.parked) } }
  else if a < 0x20000 ∧ s.testBusy e = true ∧ a / 64 = z.btest.next then
    let s := s.modEz e fun z => { z with btest := { z.btest with buf := Cells.put vacantPhys a p z.btest.buf } }
    if z.btest.serves a then s else s.putArray e a p
  else s.putArray e a p

/-- Counts a corrected error (R118). -/
def State.countCe (s : State) (e : Fin 8) : State :=
  (s.bumpS (R.ECC_CNT_CE_CNT e)).raise (R.MEM_STATUS_CE e)

/-- Counts an uncorrectable error of the word at operand address `a` and posts MEM_UE (R118). ECC_ADDR has no form for a
pass-local word: ADDR is then a free value. -/
def State.countUe (s : State) (e : Fin 8) (a : Nat) : State :=
  let s := (s.bumpS (R.ECC_CNT_UE_CNT e)).raise (R.MEM_STATUS_UE e)
  let store := if a < stateBase then 0 else 1
  let s := if a < scratchBase then s else s.draw
  let addr := if a < stateBase then a else if a < scratchBase then a - stateBase else Config.freeNat s.freeCount
  let s := ((s.set (R.ECC_ADDR_ADDR e) addr).set (R.ECC_ADDR_STORE e) store).setFlag (R.ECC_ADDR_VALID e) true
  s.postEasel e 0x30 [arg store, arg (s.get (R.ECC_ADDR_ADDR e))]

/-- What a read of operand address `a` returns and does, by what it finds (R102, R118, R120). -/
def State.readFound (s : State) (e : Fin 8) (a : Nat) (d : Decoded) : TWord × State :=
  match d with
  | .clean d vac => (if vac then ⟨vacantWord, true⟩ else ⟨d, Cells.get false a (s.ez e).taints⟩, s)
  | .fixed d vac =>
    (if vac then ⟨vacantWord, true⟩ else ⟨d, Cells.get false a (s.ez e).taints⟩,
     (s.putPhys e a (encodeWord d vac)).countCe e)
  | .lost => (⟨vacantWord, true⟩, s.countUe e a)

/-- Reads the memory word at an operand address below 0x2_4080 (R102, R118, R120). -/
def State.readMem (s : State) (e : Fin 8) (a : Nat) : TWord × State :=
  s.readFound e a (decodeWord ((s.ez e).physAt (s.testBusy e) a))

/-- Writes a memory word with its taint; the vacancy bit becomes 0 (R102, R119). -/
def State.writeMem (s : State) (e : Fin 8) (a : Nat) (w : TWord) : State :=
  (s.putPhys e a (encodeWord w.val false)).modEz e fun z => { z with taints := Cells.put false a w.taint z.taints }

/-- Makes SCRATCH, PRED and LAND vacant (R93). -/
def Easel.clearLocal (z : Easel) : Easel :=
  { z with mem := z.mem.filter fun p => p.1 < scratchBase, taints := [] }

/-! ## The transparent test (R124 to R128) -/

/-- The word that access `k` of sub-bank `sub` reaches in a region, and what the access does: March element reads and writes
in the order of the table. -/
inductive TestAccess where
  | save (j : Nat)
  | marchRead (j : Nat)
  | marchWrite (j : Nat)
  | restore (j : Nat)
  | verify (j : Nat)
deriving DecidableEq, Repr

/-- The word of the sub-bank, 0 to 3, that an access reaches. -/
def TestAccess.word (t : TestAccess) : Nat :=
  match t with
  | .save j | .marchRead j | .marchWrite j | .restore j | .verify j => j

def testAccess (k : Nat) : TestAccess :=
  if k < 4 then .save k
  else if k < 8 then .marchWrite (k - 4)
  else if k < 24 then (if (k - 8) % 2 = 0 then .marchRead ((k - 8) / 2 % 4) else .marchWrite ((k - 8) / 2 % 4))
  else if k < 40 then (if (k - 24) % 2 = 0 then .marchRead (3 - (k - 24) / 2 % 4) else .marchWrite (3 - (k - 24) / 2 % 4))
  else if k < 44 then .marchRead (k - 40)
  else if k < 48 then .restore (k - 44)
  else .verify (k - 48)

/-- Changes the test engine of easel `e`. -/
def State.modTest (s : State) (e : Fin 8) (f : BTest → BTest) : State :=
  s.modEz e fun z => { z with btest := f z.btest }

/-- The lowest bit of a word that is 1. -/
def lowestBit (w : BitVec 48) : Nat := ((List.range 48).find? fun i => w.getLsbD i).getD 0

/-- Parks the region in progress after a mismatch (R127). -/
def State.park (s : State) (e : Fin 8) (a bit : Nat) : State :=
  let z := s.ez e
  let region := z.btest.next
  let words := (List.range 64).map fun i => (64 * region + i, if (z.btest.buf.any fun p => p.1 == 64 * region + i) = true
    then Cells.get vacantPhys (64 * region + i) z.btest.buf else z.physAt true (64 * region + i))
  let s := s.modTest e fun b => { b with parked := b.parked ++ words, buf := [], steps := Vector.replicate 16 0 }
  let s := (((s.setFlag (R.BTEST_STATUS_PARKED e) true).raise (R.BTEST_STATUS_FAIL e)).setFlag
    (R.BTEST_STATUS_BUSY e) false).set (R.BTEST_STATUS_REGION e) region
  let s := (s.set (R.BTEST_FAIL_ADDR e) a).set (R.BTEST_FAIL_BIT e) bit
  s.postEasel e 0x31 [arg region, arg a, arg bit]

/-- Saves a word in the buffer. -/
def State.testKeep (s : State) (e : Fin 8) (a : Nat) (p : Phys) : State :=
  s.modTest e fun b => { b with buf := Cells.insert a p (Cells.erase a b.buf) }

/-- Saves the word `p` at `a`, corrected or vacant by what was found in it, and counts an error once (R125). -/
def State.saveFound (s : State) (e : Fin 8) (a : Nat) (p : Phys) (d : Decoded) : State :=
  match d with
  | .clean _ _ => s.testKeep e a p
  | .fixed d vac => ((s.putArray e a (encodeWord d vac)).countCe e).testKeep e a (encodeWord d vac)
  | .lost => (s.countUe e a).testKeep e a vacantPhys

/-- The SAVE access (R125). -/
def State.testSave (s : State) (e : Fin 8) (a : Nat) : State :=
  let p := Cells.get vacantPhys a (s.ez e).mem
  s.saveFound e a p (decodeWord p)

/-- The engine goes on after its region: to START where EN was set meanwhile, else to the next region, with a completed sweep
after region 2,047 (R126). -/
def State.regionNext (s : State) (e : Fin 8) : State :=
  let b := (s.ez e).btest
  let s := s.modTest e fun b =>
    { b with next := b.restart.getD (if b.next = 2047 then 0 else b.next + 1), restart := none }
  if b.next = 2047 then s.bumpK (R.BTEST_SWEEPS_SWEEPS e) else s

/-- The region in progress has ended (R126). -/
def State.regionEnd (s : State) (e : Fin 8) : State :=
  ((s.modTest e fun b => { b with buf := [], steps := Vector.replicate 16 0 }).setFlag (R.BTEST_STATUS_BUSY e) false).regionNext e

/-- EN of the test changes from 0 to 1: START is the first region. DESIGN CHOICE: a region in progress is finished first, and a
parked one stays parked until RESUME (log entry 98). -/
def State.testEnabled (s : State) (e : Fin 8) : State :=
  let start := s.get (R.BTEST_CTRL_START e)
  if s.testBusy e || s.flag (R.BTEST_STATUS_PARKED e) then s.modTest e fun b => { b with restart := some start }
  else s.modTest e fun b => { b with next := start }

/-- A region starts at a release (R126). -/
def State.regionStart (s : State) (e : Fin 8) : State :=
  (s.setFlag (R.BTEST_STATUS_BUSY e) true).set (R.BTEST_STATUS_REGION e) (s.ez e).btest.next

/-- Has every sub-bank made its 52 accesses? -/
def BTest.finished (b : BTest) : Bool := (fins 16).all fun (i : Fin 16) => b.steps[i] == 52

/-- What one access does at address `a`, where the buffer holds `kept`; `defect` is what the cells change in the data of a
read (R124, R125, R127). -/
def State.testAct (s : State) (e : Fin 8) (a : Nat) (kept : Phys) (defect : BitVec 48) (t : TestAccess) : State :=
  match t with
  | .save _ => s.testSave e a
  | .marchRead _ => if defect = 0 then s else s.park e a (lowestBit defect)
  | .marchWrite _ => s
  | .restore _ => s.putArray e a kept
  | .verify _ =>
    let diff := Cells.get vacantPhys a (s.ez e).mem ^^^ defect ^^^ kept
    if diff = 0 then s else s.park e a (lowestBit diff)

/-- One access of the test engine in sub-bank `sub`. -/
def State.testStep (s : State) (e : Fin 8) (sub : Fin 16) (defect : BitVec 48) : State :=
  let b := (s.ez e).btest
  let t := testAccess b.steps[sub]
  let a := 64 * b.next + 16 * t.word + sub.val
  let s := s.modTest e fun b => { b with steps := upd b.steps sub fun k => k + 1 }
  let s := s.testAct e a (Cells.get vacantPhys a b.buf) defect t
  if s.testBusy e && (s.ez e).btest.finished then s.regionEnd e else s

/-- At hold entry the engine writes back every saved word and pauses; the region is repeated from SAVE (R128). -/
def State.testPause (s : State) (e : Fin 8) : State :=
  if s.testBusy e then
    let s := s.modEz e fun z =>
      { z with mem := z.btest.buf.foldl (fun (m : Cells Phys) (p : Nat × Phys) => Cells.put vacantPhys p.1 p.2 m) z.mem }
    let s := s.modTest e fun b => { b with buf := [], steps := Vector.replicate 16 0 }
    s.setFlag (R.BTEST_STATUS_BUSY e) false
  else s

/-- R121: the test engine takes an idle handshake of a sub-bank. Without a region in progress, or with the sub-bank's share
done, there is no access. -/
def execBtestAccess (e : Fin 8) (sub : Fin 16) (defect : BitVec 48) (s : State) : Host.Outcome State Fault Refusal :=
  if s.testBusy e && (s.ez e).btest.steps[sub] < 52 then .next (s.testStep e sub defect) else .next s

end Sys2Proof.Machine
end

