-- ==== Sys2Proof/Machine/Ledger.lean ====
section
/-! DEFINITION. The ledger: descriptor fields, groups, counts, entry words and readout (Descriptor Catalogue; Ledger, Commit
and Replay, R169 to R173). -/

namespace Sys2Proof.Machine

/-! ## Descriptor fields -/

def Entry.op (d : Entry) : Nat := bits d[0].toNat 0 8
def Entry.gpos (d : Entry) : Nat := bits d[0].toNat 8 3
def Entry.glenM1 (d : Entry) : Nat := bits d[0].toNat 12 3
def Entry.tag (d : Entry) : BitVec 16 := d[0].extractLsb' 16 16
def Entry.atEn (d : Entry) : Bool := d[0].getLsbD 32
def Entry.atDb (d : Entry) : BitVec 48 := d[1].setWidth 48
def Entry.address (d : Entry) : Nat := bits d[2].toNat 0 17
def Entry.count (d : Entry) : Nat := bits d[2].toNat 20 3
/-- VAL words 0 to 4, bits [39:0] (R155). -/
def Entry.val (d : Entry) (j : Fin 5) : Word := (d[j.val + 3]).setWidth 40

def cmdNop : Nat := 1
def cmdStateWr : Nat := 2
def cmdBankWr : Nat := 3
def cmdStateRd : Nat := 4
def cmdBankRd : Nat := 5

/-- Bits [63:40] all 0, or copies of bit 39 (R15). -/
def fillOk (w : BitVec 64) : Bool := w == fill64 (w.setWidth 40) || w == (w.setWidth 40).setWidth 64

/-- A descriptor whose layout or field values depart from the catalogue (R153, R154). -/
def Entry.malformed (d : Entry) : Bool :=
  let n := d.count
  let isRead := d.op == cmdStateRd || d.op == cmdBankRd
  let limit := if d.op = cmdStateWr ∨ d.op = cmdStateRd then 4096 else 131072
  decide (d.op < 1) || decide (5 < d.op) || decide (d.glenM1 < d.gpos)
    || d[0].getLsbD 11 || d[0].getLsbD 15 || decide (d[0].toNat ≥ 2 ^ 33) || decide (d[1].toNat ≥ 2 ^ 48)
    || (!d.atEn && d[1] != 0) || (d.gpos != 0 && d.atEn)
    || decide (bits d[2].toNat 17 3 ≠ 0) || decide (d[2].toNat ≥ 2 ^ 23)
    || (if d.op = cmdNop then n != 0 || d.address != 0 else decide (n < 1) || decide (5 < n) || decide (limit < d.address + n))
    || (isRead && d.glenM1 != 0)
    || (fins 5).any fun j => if j.val < n && !isRead then !fillOk d[j.val + 3] else d[j.val + 3] != 0

/-- Does a descriptor break the group rule behind the one accepted before it (R156)? -/
def breaksGroup (prev : Option LEntry) (d : Entry) : Bool :=
  match prev with
  | some p =>
    if p.desc.gpos < p.desc.glenM1 then
      !(d.gpos == p.desc.gpos + 1 && d.glenM1 == p.desc.glenM1 && d.tag == p.desc.tag)
    else d.gpos != 0
  | none => d.gpos != 0

/-! ## Groups -/

/-- The entries split into transactions, oldest first; only the last can be partial (R156, R413). -/
def groups : Nat → List LEntry → List (List LEntry)
  | 0, _ => []
  | _, [] => []
  | n + 1, x :: t => (x :: t.take x.desc.glenM1) :: groups n (t.drop x.desc.glenM1)

/-- The transactions of a ledger. -/
def transactions (l : List LEntry) : List (List LEntry) := groups l.length l

/-- Have all descriptors of a transaction been accepted? -/
def wholeGroup (g : List LEntry) : Bool :=
  match g with
  | x :: _ => g.length == x.desc.glenM1 + 1
  | [] => false

/-- Is a transaction still PENDING? -/
def pendingGroup (g : List LEntry) : Bool := g.any fun x => x.st == .pending

/-! ## Counts (R142, R169, R180) -/

def Easel.pendingCount (z : Easel) : Nat := (z.ledger.filter fun x => x.st == .pending).length
def Easel.endedCount (z : Easel) : Nat := z.ledger.length - z.pendingCount
def Easel.ledgerFree (z : Easel) : Nat := 4096 - z.ledger.length

/-- The index TAIL, and CMT (R169). -/
def Easel.tail (z : Easel) : BitVec 13 := z.ret + BitVec.ofNat 13 z.ledger.length
def Easel.cmt (z : Easel) : BitVec 13 := z.ret + BitVec.ofNat 13 z.endedCount

/-- Reserved completion slots: entries that hold their reservation. -/
def Easel.reserved (z : Easel) : Nat := (z.ledger.filter fun x => x.resv).length

/-- Is any transaction without its reservation (REPLAY_WAIT, R179)? -/
def Easel.replayWait (z : Easel) : Bool := z.ledger.any fun x => !x.resv

/-- Free slots of the completion ring (R142). -/
def State.completionFree (s : State) (e : Fin 8) : Nat :=
  2 ^ s.get (R.RING_SIZE_CPL_LOG2 e) - (s.ez e).reserved
    - (BitVec.ofNat 16 (s.get (R.RING_IDX0_CPL_TAIL e)) - (s.ez e).cplHead).toNat

/-- The completion credits of R139, which read 0 while a reservation is missing (R180). -/
def State.credits (s : State) (e : Fin 8) : Nat := if (s.ez e).replayWait then 0 else s.completionFree e

/-! ## Entry words (R170) -/

def LState.code (x : LState) : Nat :=
  match x with
  | .pending => 1
  | .committed => 2
  | .aborted => 3

/-- LM0 of an entry. -/
def LEntry.lm0 (x : LEntry) : BitVec 64 :=
  BitVec.ofNat 64 (x.st.code + 4 * x.replay.toNat + 8 * x.resv.toNat + 16 * x.late.toNat + 2 ^ 16 * x.cmdIdx.toNat
    + 2 ^ 32 * (stamp x.accTime).toNat)

/-- LM1 of an entry: its DB. -/
def LEntry.lm1 (x : LEntry) : BitVec 64 := x.db.setWidth 64

/-- Changes entry `i` of the ledger of easel `e`. -/
def State.modEntry (s : State) (e : Fin 8) (i : Nat) (f : LEntry → LEntry) : State :=
  s.modEz e fun z => { z with ledger := z.ledger.mapIdx fun j x => if j = i then f x else x }

/-- Counts an uncorrectable error of entry `i` (R181). -/
def State.ledgerUe (s : State) (e : Fin 8) (i : Nat) : State :=
  let s := (s.bumpS (R.LDG_ECC_UE_CNT e)).raise (R.LDG_STATUS_UE e)
  s.set (R.LDG_STATUS_UE_ENTRY e) (((s.ez e).ret.toNat + i) % 4096)

/-- The condition of word `w` of entry `i`. -/
def State.wordError (s : State) (e : Fin 8) (i : Nat) (w : Fin 10) : WordError :=
  match (s.ez e).ledger[i]? with
  | some x => x.err[w]
  | none => .clean

/-- A read of word `w` of entry `i`: a single-bit error is corrected, written back and counted (R170). -/
def State.readWord (s : State) (e : Fin 8) (i : Nat) (w : Fin 10) : State :=
  match s.wordError e i w with
  | .clean => s
  | .single => (s.modEntry e i fun x => { x with err := upd x.err w fun _ => .clean }).bumpS (R.LDG_ECC_CE_CNT e)
  | .double => s.ledgerUe e i

/-- A read of the ten words of entry `i`. -/
def State.readEntry (s : State) (e : Fin 8) (i : Nat) : State := forAll 10 (fun w s => s.readWord e i w) s

/-- Does any word of an entry hold an uncorrectable error? -/
def LEntry.broken (x : LEntry) : Bool := x.err.toList.contains .double

/-! ## Ending without commit (R181, R413) -/

/-- An entry that is aborted: its DB reads 0 (R170). -/
def LEntry.abort (x : LEntry) : LEntry := if x.st = .pending then { x with st := .aborted, db := 0 } else x

/-- Every PENDING entry becomes ABORTED, a partial group as a whole. -/
def State.abortPending (s : State) (e : Fin 8) : State :=
  s.modEz e fun z => { z with ledger := z.ledger.map LEntry.abort }

/-- Is an abort due: written at least 40 ns ago? -/
def State.abortDue (s : State) (e : Fin 8) : Bool := (s.ez e).aborts.any fun t => decide (t + 500 ≤ s.age)

/-- The writes of ABORT that are due act; a later one waits for its own downbeat. -/
def State.abortNow (s : State) (e : Fin 8) : State :=
  if s.abortDue e then
    (s.abortPending e).modEz e fun z => { z with aborts := z.aborts.filter fun t => !decide (t + 500 ≤ s.age) }
  else s

/-- The abort of an easel with RUN = 0, 40 ns after the write. -/
def State.abortStopped (s : State) (e : Fin 8) : State := if s.run e then s else s.abortNow e

/-- R181: a write of LDG_CTRL.ABORT, or of LDG_ABORT.ABORT, as the agent reaches them; the abort comes with time. -/
def execLedgerAbort (e : Fin 8) (a : Agent) (s : State) : Host.Outcome State Fault Refusal :=
  if s.reaches a || s.reachesWindow a e then
    .next (s.modEz e fun z => { z with aborts := if z.aborts.contains s.age then z.aborts else z.aborts ++ [s.age] })
  else .next s

/-! ## Readout (R170) -/

/-- Fills LDG_DATA from ten words. -/
def State.showWords (s : State) (ws : List (BitVec 64)) : State :=
  (List.range 20).foldl (fun s w =>
    s.set (R.LDG_DATA_DATA w) ((ws.getD (w / 2) 0).toNat / 2 ^ (32 * (w % 2)) % 2 ^ 32)) s

/-- Ten words that the specification leaves open. -/
def State.openWords (s : State) : List (BitVec 64) := (List.range 10).map fun i => Config.freeLedgerWord (s.freeCount + i)

/-- Captures the entry that LDG_SEL names. What the words of a FREE entry hold beside its STATE and the bits that read 0, and a
word with an uncorrectable error, are free values. -/
def State.captureEntry (s : State) : State :=
  let e : Fin 8 := ⟨s.get R.LDG_SEL_EASEL % 8, Nat.mod_lt _ (by decide)⟩
  let i := (s.get R.LDG_SEL_ENTRY + 4096 - (s.ez e).ret.toNat % 4096) % 4096
  let s := s.readEntry e i
  let spare := s.openWords
  let s := { s with freeCount := s.freeCount + 10 }
  match (s.ez e).ledger[i]? with
  | some x =>
    let ws := x.desc.toList ++ [x.lm0, x.lm1]
    s.showWords ((fins 10).map fun (w : Fin 10) => if x.err[w] = .double then spare.getD w.val 0 else ws.getD w.val 0)
  | none => s.showWords (spare.take 8 ++ [spare.getD 8 0 &&& ~~~0xFFE3#64, spare.getD 9 0 &&& 0xFFFFFFFFFFFF#64])

/-- R170: a write of LDG_SEL captures the selected entry. -/
def execLdgSelWrite (a : Agent) (value : BitVec 32) (s : State) : Host.Outcome State Fault Refusal :=
  if s.reaches a then
    let s := s.set R.LDG_SEL_ENTRY value.toNat
    let s := (s.set R.LDG_SEL_EASEL (value.toNat / 2 ^ 16)).captureEntry
    .next (if value &&& ~~~0x70FFF#32 = 0 then s else s.globalError 0x5100)
  else .next s

end Sys2Proof.Machine
end

