-- ==== Sys2Proof/Machine/Rings.lean ====
section
/-! DEFINITION. Rings and doorbells: the grant window, outages, intake, credits, completion and status writes, staging,
interrupts, enabling and link faults (Rings and Doorbells in Host Memory). -/

namespace Sys2Proof.Machine

/-! ## Outages and the grant window (R133, R147, R148) -/

/-- Is the link in DL_Active? -/
def State.dlActive (s : State) : Bool := s.flag R.LINK_STATUS_DL_ACTIVE

/-- Bus Master Enable of the function of easel `e`. -/
def State.bmeOf (s : State) (e : Fin 8) : Bool := s.bme.getLsbD (e.val + 1)

/-- An outage of easel `e` (R147). -/
def State.outage (s : State) (e : Fin 8) : Bool :=
  (s.ez e).reset.isSome || !s.flag (R.RING_CTRL_EN e) || !s.bmeOf e || !s.dlActive

/-- Can the F0 event ring be served? -/
def State.f0Served (s : State) : Bool := s.flag R.F0_RING_CTRL_EN && s.bme.getLsbD 0 && s.dlActive

/-- log2 of the grant window; 0: none. -/
def State.grantLog2 (s : State) (e : Fin 8) : Nat := s.get (R.GRANT_LO_LOG2 e)

/-- The base of the grant window. -/
def State.grantBase (s : State) (e : Fin 8) : Nat :=
  s.get (R.GRANT_HI_BASE_HI e) * 2 ^ 32 + s.get (R.GRANT_LO_BASE_LO e) * 2 ^ 16

/-- The host address of an offset of easel `e` (R133). -/
def State.dmaAddr (s : State) (e : Fin 8) (off : Nat) : BitVec 64 :=
  BitVec.ofNat 64 (s.grantBase e + off % 2 ^ s.grantLog2 e)

/-- Sends a posted write. -/
def State.send (s : State) (addr : BitVec 64) (ws : List (BitVec 64)) : State :=
  { s with outbox := s.outbox ++ [.write addr ws] }

/-- Sends a read request. -/
def State.sendRead (s : State) (addr : BitVec 64) (bytes : Nat) : State := { s with outbox := s.outbox ++ [.read addr bytes] }

/-- May easel `e` issue DMA: no outage, and a grant window (R133, R148)? -/
def State.mayDma (s : State) (e : Fin 8) : Bool := !s.outage e && s.grantLog2 e != 0

/-- What an easel's outage does to reads in flight: their data is discarded; an intake whose descriptor reads have not been
issued ends at once (R148). -/
def State.staleReads (s : State) (e : Fin 8) : State :=
  s.modEz e fun z =>
    let unissued := match z.intake with
      | .fetch _ => decide (s.age < z.issueAt)
      | _ => false
    if unissued then { z with intake := .idle, intakeStale := false, intakeBad := false, accepted := 0,
                              pollStale := z.pollStale || z.poll }
    else { z with intakeStale := z.intakeStale || z.intake != .idle, pollStale := z.pollStale || z.poll }

/-! ## The functions of the endpoint: MSI-X and error reporting (R129, R130, R146) -/

def State.modFn (s : State) (g : Fin 9) (f : PcieFn → PcieFn) : State := { s with pcie := upd s.pcie g f }

/-- The function of easel `e`. -/
def fnOf (e : Fin 8) : Fin 9 := ⟨e.val + 1, by omega⟩

/-- Is a vector of a function masked, by its own bit or with the whole function? -/
def PcieFn.vectorMasked (x : PcieFn) (v : Fin 16) : Bool := x.msixMask || x.table[v].masked

/-- An interrupt of vector `vec` of function `g`: a message, or a pending bit where it is masked; nothing while MSI-X is off. -/
def State.sendMsix (s : State) (g : Fin 9) (vec : Nat) : State :=
  let x := s.pcie[g]
  let v : Fin 16 := Fin.ofNat 16 vec
  if !x.msixEn then s
  else if x.vectorMasked v then s.modFn g fun x => { x with pba := x.pba ||| BitVec.ofNat 16 (2 ^ v.val) }
  else { s with outbox := s.outbox ++ [.msix g.val v.val x.table[v].addr x.table[v].data] }

/-- Pending messages of function `g` whose vectors are no longer masked go out. -/
def State.flushMsix (s : State) (g : Fin 9) : State :=
  forAll 16 (fun (v : Fin 16) s =>
    let x := s.pcie[g]
    if x.msixEn && x.pba.getLsbD v.val && !x.vectorMasked v && s.bme.getLsbD g.val && s.dlActive then
      (s.modFn g fun x => { x with pba := x.pba &&& ~~~BitVec.ofNat 16 (2 ^ v.val) }).sendMsix g v.val
    else s) s

/-- A write through BAR2: message address, message data and vector control of a table entry; the pending bits are read-only. -/
def State.writeBar2 (s : State) (g : Fin 9) (off : Nat) (w : BitVec 32) : State :=
  if 0x100 ≤ off ∨ off % 4 ≠ 0 then s
  else
    let put (f : MsixEntry → MsixEntry) : State :=
      s.modFn g fun x => { x with table := upd x.table (Fin.ofNat 16 (off / 16)) f }
    (match off % 16 with
      | 0 => put fun m => { m with addr := m.addr &&& ~~~0xFFFFFFFF#64 ||| w.setWidth 64 }
      | 4 => put fun m => { m with addr := m.addr &&& 0xFFFFFFFF#64 ||| (w.setWidth 64) <<< 32 }
      | 8 => put fun m => { m with data := w }
      | _ => put fun m => { m with masked := w.getLsbD 0 }).flushMsix g

/-- A failed read is a completion timeout (bit 14) or a poisoned packet (bit 12); the specification says which in no command. -/
def State.reportAer (s : State) (g : Fin 9) : State :=
  let k : Nat := if Config.wildActs s.freeCount 0x1000000 then 14 else 12
  (s.modFn g fun x => { x with aer := x.aer ||| BitVec.ofNat 32 (2 ^ k) }).draw

/-- The configuration of function `g` starts anew; recorded errors stay. -/
def State.resetFn (s : State) (g : Fin 9) : State := s.modFn g fun x => { aer := x.aer }

/-! ## Ring and host control block offsets (R135) -/

def State.hcb (s : State) (e : Fin 8) (off : Nat) : BitVec 64 := s.dmaAddr e (s.get (R.HCB_OFF_OFF e) + off)

/-- Index `i` in a ring of `2 ^ log2` entries at offset `base`. -/
def State.slotAddr (s : State) (e : Fin 8) (base log2 : Nat) (i : BitVec 16) : BitVec 64 :=
  s.dmaAddr e (base + 64 * (i.toNat % 2 ^ log2))

def State.cmdHead (s : State) (e : Fin 8) : BitVec 16 := BitVec.ofNat 16 (s.get (R.RING_IDX0_CMD_HEAD e))
def State.cplTail (s : State) (e : Fin 8) : BitVec 16 := BitVec.ofNat 16 (s.get (R.RING_IDX0_CPL_TAIL e))

/-! ## Status words (R143) and interrupts (R146) -/

/-- Sends the message of a ring, at most one per downbeat while RUN = 1: the next one is owed until the downbeat. -/
def State.cplIrq (s : State) (e : Fin 8) : State :=
  if s.flag (R.RING_IRQ_IE_CPL e) then
    if (s.ez e).cplSent && s.run e then s.modEz e fun z => { z with cplOwed := true }
    else (s.modEz e fun z => { z with cplSent := true }).sendMsix (fnOf e) (s.get (R.RING_IRQ_VEC_CPL e))
  else s

def State.evtIrq (s : State) (e : Fin 8) : State :=
  if s.flag (R.RING_IRQ_IE_EVT e) then
    if (s.ez e).evt.irqSent && s.run e then s.modEz e fun z => { z with evt := { z.evt with irqOwed := true } }
    else (s.modEz e fun z => { z with evt := { z.evt with irqSent := true } }).sendMsix (fnOf e)
      (s.get (R.RING_IRQ_VEC_EVT e))
  else s

def State.smpIrq (s : State) (e : Fin 8) : State :=
  if s.flag (R.RING_IRQ_IE_SMP e) then
    if (s.ez e).smp.irqSent && s.run e then s.modEz e fun z => { z with smp := { z.smp with irqOwed := true } }
    else (s.modEz e fun z => { z with smp := { z.smp with irqSent := true } }).sendMsix (fnOf e)
      (s.get (R.RING_IRQ_VEC_SMP e))
  else s

def State.f0Irq (s : State) : State :=
  if s.flag R.F0_RING_CTRL_IE then
    if s.f0.irqSent then { s with f0 := { s.f0 with irqOwed := true } }
    else ({ s with f0 := { s.f0 with irqSent := true } }).sendMsix 0 (s.get R.F0_RING_CTRL_VEC)
  else s

/-- A downbeat of easel `e` allows one more message per ring; owed ones are sent, or in an outage stay owed (R146, R148). -/
def State.irqDownbeat (s : State) (e : Fin 8) : State :=
  let z := s.ez e
  let out := s.outage e
  let s := s.modEz e fun z =>
    { z with cplSent := false, cplOwed := z.cplOwed && out,
             evt := { z.evt with irqSent := false, irqOwed := z.evt.irqOwed && out },
             smp := { z.smp with irqSent := false, irqOwed := z.smp.irqOwed && out } }
  if out then s else
  let s := if z.cplOwed then s.cplIrq e else s
  let s := if z.evt.irqOwed then s.evtIrq e else s
  if z.smp.irqOwed then s.smpIrq e else s

/-- A new 10.24 µs window of the F0 ring. -/
def State.irqWindow (s : State) : State :=
  let owed := s.f0.irqOwed && s.f0Served
  let s := { s with f0 := { s.f0 with irqSent := false, irqOwed := s.f0.irqOwed && !owed } }
  if owed then s.f0Irq else s

/-- Writes ST_CPL. -/
def State.writeStCpl (s : State) (e : Fin 8) : State :=
  let w := BitVec.ofNat 64 ((s.cplTail e).toNat + 2 ^ 16 * (s.cmdHead e).toNat + 2 ^ 32 * (s.ez e).cplDb.toNat)
  ((s.modEz e fun z => { z with stOwed := false }).send (s.hcb e 0x20) [w]).cplIrq e

/-- A status word of an event or sample ring. -/
def statusWord (tail : Nat) (gaps : BitVec 16) : BitVec 64 := BitVec.ofNat 64 (tail + 2 ^ 16 * gaps.toNat)

/-! ## Host control block reads (R137 to R141) -/

/-- Is a head the host wrote outside its ring (R137)? -/
def headBad (head old tail : BitVec 16) : Bool := decide ((tail - old).toNat < (head - old).toNat)

/-- Takes the three heads of an easel; a head outside its ring is a host error. -/
def State.takeHeads (s : State) (e : Fin 8) (cpl evt smp : BitVec 64) : State :=
  let z := s.ez e
  let et := BitVec.ofNat 16 (s.get (R.RING_IDX1_EVT_TAIL e))
  let st := BitVec.ofNat 16 (s.get (R.RING_IDX1_SMP_TAIL e))
  let bad := headBad (cpl.setWidth 16) z.cplHead (s.cplTail e) || headBad (evt.setWidth 16) z.evt.head et
    || headBad (smp.setWidth 16) z.smp.head st || cpl.ushiftRight 16 != 0 || evt.ushiftRight 16 != 0 || smp.ushiftRight 16 != 0
  let s := s.modEz e fun z =>
    { z with cplHead := cpl.setWidth 16, evt := { z.evt with head := evt.setWidth 16 },
             smp := { z.smp with head := smp.setWidth 16 } }
  if bad then s.hostError e else s

/-- The INTAKE run of a pass begins (R70, R138, R141): in an intake pass it issues the doorbell read. -/
def State.intakeStart (s : State) (e : Fin 8) (preload : Bool) : State :=
  if !s.mayDma e then s
  else if (s.ez e).intake != .idle then
    if preload then s else s.bumpW (R.INTAKE_SKIP_CNT_COUNT e) (R.RING_STATUS_SKIP_OVF e)
  else (s.modEz e fun z => { z with intake := .doorbell preload, intakeStale := false, intakeBad := false }).sendRead (s.hcb e 0) 32

/-- The intake ends; ST_CPL publishes CMD_HEAD if anything was accepted, after an outage where one stands now (R143). -/
def State.intakeEnd (s : State) (e : Fin 8) : State :=
  let n := (s.ez e).accepted
  let s := s.modEz e fun z => { z with intake := .idle, intakeStale := false, intakeBad := false, accepted := 0 }
  if n = 0 then s else if s.mayDma e then s.writeStCpl e else s.modEz e fun z => { z with stOwed := true }

/-- The outstanding descriptor reads of an intake; with the last of them it ends (R141). -/
def State.readsLeft (s : State) (e : Fin 8) (l : List (BitVec 64 × Nat)) : State :=
  if l.isEmpty then s.intakeEnd e else s.modEz e fun z => { z with intake := .descs l }

/-- The first failed read of an intake (R141). -/
def State.intakeFail (s : State) (e : Fin 8) : State :=
  if (s.ez e).intakeBad then s
  else
    let s := (s.bumpS (R.INTAKE_ERR_CNT_COUNT e)).raise (R.RING_STATUS_INTAKE_ERR e)
    (s.postEasel e 0x40 [0, arg (s.cmdHead e).toNat]).modEz e fun z => { z with intakeBad := true }

/-- How many descriptors an intake fetches (R139, R374). -/
def State.fetchCount (s : State) (e : Fin 8) (preload : Bool) (cmdTail : BitVec 16) : Nat :=
  let k := if preload then 64 else (s.halfOf e).intakeK (s.entryOf e)
  min (min k (cmdTail - s.cmdHead e).toNat) (min (s.ez e).ledgerFree (s.credits e))

/-- The descriptor reads of `n` slots from CMD_HEAD on: two where they pass the end of the ring (R139). -/
def State.slotReads (s : State) (e : Fin 8) (n : Nat) : List (BitVec 64 × Nat) :=
  let log2 := s.get (R.RING_SIZE_CMD_LOG2 e)
  let base := s.get (R.CMD_BASE_OFF e)
  let toEnd := 2 ^ log2 - (s.cmdHead e).toNat % 2 ^ log2
  if n ≤ toEnd then [(s.slotAddr e base log2 (s.cmdHead e), n)]
  else [(s.slotAddr e base log2 (s.cmdHead e), toEnd), (s.slotAddr e base log2 0, n - toEnd)]

/-- The words of a doorbell read are taken; the descriptor reads issue within 100 ns (R138, R139). -/
def State.doorbellTaken (s : State) (e : Fin 8) (preload : Bool) (w : Vector (BitVec 64) 4) : State :=
  let tail : BitVec 16 := w[0].setWidth 16
  let bad := decide (2 ^ s.get (R.RING_SIZE_CMD_LOG2 e) < (tail - s.cmdHead e).toNat) || w[0].ushiftRight 16 != 0
  let s := (s.takeHeads e w[1] w[2] w[3]).set (R.DB_SEEN_CMD_TAIL e) tail.toNat
  let n := s.fetchCount e preload tail
  let s := (s.modEz e fun z =>
    { z with intake := if n = 0 then .idle else .fetch (s.slotReads e n), accepted := 0,
             issueAt := s.age + min 1250 (Config.issueDelay s.freeCount) }).draw
  if bad then s.hostError e else s

/-- The number that the next downbeat of easel `e` takes (R52). -/
def State.nextDb (s : State) (e : Fin 8) : BitVec 48 := if (s.ez e).dbFired then (s.ez e).dbCount + 1 else 0

/-- The instant of the downbeat that fires next, if there is one. -/
def State.dbPoint (s : State) (e : Fin 8) : Option Time :=
  match (s.ez e).genLast with
  | some t => some t
  | none => if s.run e then (s.ez e).gen else none

/-- Does the first downbeat of easel `e` move on, since FINE_OK is 0 (R51)? -/
def State.dbMoves (s : State) (e : Fin 8) : Bool := (s.ez e).lastDb.isNone && !s.flag R.TB_STATUS_FINE_OK

/-- n0 of a descriptor accepted now (R158); a candidate that FINE_OK holds back is no downbeat. -/
def State.firstDb (s : State) (e : Fin 8) : BitVec 48 :=
  match (s.ez e).gen with
  | some t => if s.run e && !s.dbMoves e && !atLeastAfter ns40 s.time t then s.nextDb e + 1 else s.nextDb e
  | none => s.nextDb e

/-- Is a transaction late whose n0 is `n0` (R158)? -/
def lateAt (atDb n0 : BitVec 48) : Bool := decide (2 ^ 47 ≤ (atDb - n0).toNat)

/-- A descriptor enters the ledger (R139, R171, R413); one whose group was PENDING across an easel reset is replayed and late with
it (R178, R179). -/
def State.accept (s : State) (e : Fin 8) (d : Entry) : State :=
  let z := s.ez e
  let prev := z.ledger.getLast?
  let bad := d.malformed || breaksGroup prev d
  let lost := match prev with
    | some p => p.st == .aborted && decide (p.desc.gpos < p.desc.glenM1) && d.gpos != 0
    | none => false
  let part := match prev with
    | some p => decide (p.desc.gpos < p.desc.glenM1) && d.gpos != 0 && p.st == .pending
    | none => false
  let replay := part && prev.any fun p => p.replay
  let wasLate := part && prev.any fun p => p.late
  let n0 := s.firstDb e
  let x : LEntry := { desc := d, st := if lost then .aborted else .pending, replay := replay, resv := true, late := wasLate,
                      cmdIdx := s.cmdHead e, accTime := s.time, accAge := s.age, db := if lost then 0 else n0, read := .none, data := [],
                      commitTs := 0, err := allClean }
  let l := z.ledger ++ [x]
  let first := (l[l.length - 1 - d.gpos]?).getD x
  let late := d.gpos == d.glenM1 && !lost && first.desc.atEn && lateAt first.desc.atDb n0
  let l := l.mapIdx fun i y => if i + d.gpos + 1 ≥ l.length ∧ late = true then { y with late := true } else y
  let s := s.modEz e fun z => { z with ledger := l, accepted := z.accepted + 1 }
  let s := s.set (R.RING_IDX0_CMD_HEAD e) (s.get (R.RING_IDX0_CMD_HEAD e) + 1)
  if bad then s.hostError e else s

/-! ## Completions (R143, R161, R162, R172) -/

def codeOk : Nat := 1
def codeLate : Nat := 2
def codeAborted : Nat := 3

/-- A read word as a completion carries it (R162). -/
def dataWord (x : Word × Bool) : BitVec 64 := if x.2 then fill64 vacantWord else fill64 x.1

/-- The completion entry of an ended transaction (R161). -/
def completionWords (g : List LEntry) : List (BitVec 64) :=
  match g with
  | x :: _ =>
    let done := x.st == .committed
    let code := if done then (if x.late then codeLate else codeOk) else codeAborted
    let data := if done then x.data else []
    let vac := (List.range 5).foldl (fun m j => match data[j]? with
      | some d => if d.2 then m + 2 ^ j else m
      | none => m) 0
    let w0 := code + 2 ^ 8 * x.desc.op + 2 ^ 16 * x.desc.tag.toNat + 2 ^ 32 * x.desc.glenM1 + 2 ^ 35 * x.replay.toNat
    let w1 := (if done then x.db.toNat else 0) + 2 ^ 48 * x.cmdIdx.toNat
    let w2 := vac + 2 ^ 32 * (if done then x.commitTs.toNat else 0)
    [BitVec.ofNat 64 w0, BitVec.ofNat 64 w1, BitVec.ofNat 64 w2]
      ++ (List.range 5).map fun j => match data[j]? with
        | some d => dataWord d
        | none => 0
  | [] => []

/-- The transactions whose completions can be written now: ended, whole, with their reservations, in ledger order. -/
def Easel.writable (z : Easel) : List (List LEntry) :=
  (transactions z.ledger).takeWhile fun g => !pendingGroup g && wholeGroup g && g.all fun x => x.resv

/-- Writes one completion and retires its transaction. -/
def State.writeCompletion (s : State) (e : Fin 8) (g : List LEntry) : State :=
  let tail := s.cplTail e
  let s := s.send (s.slotAddr e (s.get (R.CPL_BASE_OFF e)) (s.get (R.RING_SIZE_CPL_LOG2 e)) tail) (completionWords g)
  let s := s.set (R.RING_IDX0_CPL_TAIL e) (tail.toNat + 1)
  s.modEz e fun z =>
    { z with ledger := z.ledger.drop g.length, ret := z.ret + BitVec.ofNat 13 g.length,
             cplDb := match g with
               | x :: _ => if x.st = .committed then x.db.setWidth 32 else z.cplDb
               | [] => z.cplDb }

/-- The queued completion entries are written in ledger order, then ST_CPL, then the message; their transactions retire (R143,
R172). -/
def State.writeCompletions (s : State) (e : Fin 8) : State :=
  ((s.ez e).writable.foldl (fun s g => s.writeCompletion e g) s).writeStCpl e

/-! ## Staging (R144, R163 to R168) -/

/-- An event entry (Descriptor Catalogue). -/
def EventE.words (x : EventE) : List (BitVec 64) :=
  let e := match x.easel with
    | some e => e.val + 8
    | none => 0
  let w0 := 0x01 + 2 ^ 16 * x.code + 2 ^ 32 * x.count + 2 ^ 48 * e + 2 ^ 52 * (if x.count = 65535 then 1 else 0)
  [BitVec.ofNat 64 w0, BitVec.ofNat 64 (x.tFirst.toNat + 2 ^ 32 * x.tLast.toNat), x.dbFirst.setWidth 64, x.arg0, x.arg1, x.arg2,
   x.arg3, x.arg4]

/-- A sample entry. -/
def SampleE.words (e : Fin 8) (x : SampleE) : List (BitVec 64) :=
  [BitVec.ofNat 64 (0x03 + 2 ^ 8 * x.recs.length + 2 ^ 16 * e.val), x.db.setWidth 64]
    ++ (List.range 3).flatMap fun j => match x.recs[j]? with
      | some r => [BitVec.ofNat 64 (r.tag.toNat + 2 ^ 16 * r.flags.toNat + 2 ^ 32 * r.ts.toNat), fill64 r.val]
      | none => [0, 0]

/-- A gap marker: of the event ring (1) or the sample ring (2). -/
def gapWords (ring drops : Nat) (t : Stamp) : List (BitVec 64) :=
  [BitVec.ofNat 64 (0x02 + 2 ^ 8 * ring + 2 ^ 16 * drops), t.setWidth 64, 0, 0, 0, 0, 0, 0]

/-- Free slots of a ring the device fills. -/
def ringFree (log2 : Nat) (tail head : BitVec 16) : Nat := 2 ^ log2 - (tail - head).toNat

/-- Moves the first staged event of easel `e` to its ring. -/
def State.drainEvent (s : State) (e : Fin 8) (x : EventE) : State :=
  let q := (s.ez e).evt
  let tail := BitVec.ofNat 16 (s.get (R.RING_IDX1_EVT_TAIL e))
  let log2 := s.get (R.RING_SIZE_EVT_LOG2 e)
  let put (s : State) (i : BitVec 16) (ws : List (BitVec 64)) : State := s.send (s.slotAddr e (s.get (R.EVT_BASE_OFF e)) log2 i) ws
  let s := if q.drops > 0 then put s tail (gapWords 1 q.drops q.tDrop) else s
  let k : BitVec 16 := if q.drops > 0 then 1 else 0
  let s := put s (tail + k) x.words
  let s := s.set (R.RING_IDX1_EVT_TAIL e) (tail + k + 1).toNat
  let s := s.modEz e fun z => { z with evt := { z.evt with entries := q.entries.tail, drops := 0, gaps := q.gaps + k } }
  (s.send (s.hcb e 0x28) [statusWord (tail + k + 1).toNat (q.gaps + k)]).evtIrq e

/-- Moves the first staged sample entry of easel `e` to its ring. -/
def State.drainSample (s : State) (e : Fin 8) (x : SampleE) : State :=
  let q := (s.ez e).smp
  let tail := BitVec.ofNat 16 (s.get (R.RING_IDX1_SMP_TAIL e))
  let log2 := s.get (R.RING_SIZE_SMP_LOG2 e)
  let put (s : State) (i : BitVec 16) (ws : List (BitVec 64)) : State := s.send (s.slotAddr e (s.get (R.SMP_BASE_OFF e)) log2 i) ws
  let s := if q.drops > 0 then put s tail (gapWords 2 q.drops q.tDrop) else s
  let k : BitVec 16 := if q.drops > 0 then 1 else 0
  let s := put s (tail + k) (x.words e)
  let s := s.set (R.RING_IDX1_SMP_TAIL e) (tail + k + 1).toNat
  let s := s.modEz e fun z => { z with smp := { z.smp with entries := q.entries.tail, drops := 0, gaps := q.gaps + k } }
  (s.send (s.hcb e 0x30) [statusWord (tail + k + 1).toNat (q.gaps + k)]).smpIrq e

/-- Moves the first staged event of F0 to its ring. -/
def State.drainF0 (s : State) (x : EventE) : State :=
  let q := s.f0
  let tail := BitVec.ofNat 16 (s.get R.F0_RING_STATUS_EVT_TAIL)
  let log2 := s.get R.F0_RING_CTRL_EVT_LOG2
  let base := s.get2 R.F0_EVT_HI_ADDR_HI R.F0_EVT_LO_ADDR_LO
  let put (s : State) (i : BitVec 16) (ws : List (BitVec 64)) : State :=
    s.send (BitVec.ofNat 64 (base + 64 * (i.toNat % 2 ^ log2))) ws
  let s := if q.drops > 0 then put s tail (gapWords 1 q.drops q.tDrop) else s
  let k : BitVec 16 := if q.drops > 0 then 1 else 0
  let s := put s (tail + k) x.words
  let s := s.set R.F0_RING_STATUS_EVT_TAIL (tail + k + 1).toNat
  let s := { s with f0 := { s.f0 with entries := q.entries.tail, drops := 0, gaps := q.gaps + k } }
  let st := BitVec.ofNat 64 (s.get2 R.F0_HCB_HI_ADDR_HI R.F0_HCB_LO_ADDR_LO + 0x28)
  (s.send st [statusWord (tail + k + 1).toNat (q.gaps + k)]).f0Irq

/-! ## Sample packing (R167) -/

/-- Drops a sample: it counts in SMP_DROP_CNT (R144, R185). -/
def State.dropSample (s : State) (e : Fin 8) : State :=
  (s.raise (R.RING_STATUS_SMP_GAP e)).bumpW (R.SMP_DROP_CNT_COUNT e) (R.RING_STATUS_SMP_DROP_OVF e)

/-- Closes the open sample entry; its place in staging was free when it was opened. -/
def State.closeSample (s : State) (e : Fin 8) : State :=
  match (s.ez e).sample with
  | some o =>
    s.modEz e fun z => { z with sample := none,
                                smp := if o.dropping then z.smp else { z.smp with entries := z.smp.entries ++ [⟨o.db, o.recs⟩] } }
  | none => s

/-- A sample joins the open entry, which closes with its third (R167); with an entry that found staging full it is dropped. -/
def State.joinSample (s : State) (e : Fin 8) (o : OpenSample) (r : SampleRec) : State :=
  let s := if o.dropping then s.dropSample e else s
  let s := s.modEz e fun z => { z with sample := some { o with recs := o.recs ++ [r] } }
  if o.recs.length = 2 then s.closeSample e else s

/-- A sample lands for the ring: packed in landing order, three to an entry, one period per entry. A sample that opens an entry
and finds staging full is dropped with the later samples of that entry (R167), which counts once for the gap marker (R168). -/
def State.landSample (s : State) (e : Fin 8) (db : BitVec 48) (r : SampleRec) : State :=
  let s := match (s.ez e).sample with
    | some o => if o.db = db then s else s.closeSample e
    | none => s
  match (s.ez e).sample with
  | some o => s.joinSample e o r
  | none =>
    if (s.ez e).smp.entries.length < 64 then s.joinSample e ⟨db, [], false⟩ r
    else (s.modEz e fun z => { z with smp := z.smp.drop (stamp s.time) }).joinSample e ⟨db, [], true⟩ r

/-! ## Enabling (R147) and link faults (R149) -/

/-- Do the ring areas and the host control block of easel `e`, where they lie in the grant window (R133), overlap or cross its end
(R84, R135)? -/
def State.ringsBad (s : State) (e : Fin 8) : Bool :=
  let sizes := [s.get (R.RING_SIZE_CMD_LOG2 e), s.get (R.RING_SIZE_CPL_LOG2 e), s.get (R.RING_SIZE_EVT_LOG2 e),
    s.get (R.RING_SIZE_SMP_LOG2 e)]
  let at_ (off : Nat) : Nat := off % 2 ^ s.grantLog2 e
  let areas := [(at_ (s.get (R.CMD_BASE_OFF e)), 64 * 2 ^ sizes.getD 0 4), (at_ (s.get (R.CPL_BASE_OFF e)), 64 * 2 ^ sizes.getD 1 4),
    (at_ (s.get (R.EVT_BASE_OFF e)), 64 * 2 ^ sizes.getD 2 4), (at_ (s.get (R.SMP_BASE_OFF e)), 64 * 2 ^ sizes.getD 3 4),
    (at_ (s.get (R.HCB_OFF_OFF e)), 64)]
  let crosses := areas.any fun a => decide (2 ^ s.grantLog2 e < a.1 + a.2)
  let overlap := (List.range 5).any fun i => (List.range 5).any fun j => decide (i < j) &&
    (match areas[i]?, areas[j]? with
     | some a, some b => decide (a.1 < b.1 + b.2) && decide (b.1 < a.1 + a.2)
     | _, _ => false)
  s.grantLog2 e == 0 || crosses || overlap || sizes.any fun n => decide (n < 4) || decide (12 < n)

/-- May easel `e` issue DMA or have a request outstanding (R133)? -/
def State.dmaPossible (s : State) (e : Fin 8) : Bool :=
  s.flag (R.RING_CTRL_EN e) || (s.ez e).intake != .idle || (s.ez e).poll

/-- The other easels whose grant window overlaps that of easel `e` while either may use it (R133). -/
def State.grantClash (s : State) (e : Fin 8) : List (Fin 8) :=
  (fins 8).filter fun f => f != e && s.grantLog2 e != 0 && s.grantLog2 f != 0 && (s.dmaPossible e || s.dmaPossible f)
    && decide (s.grantBase e < s.grantBase f + 2 ^ s.grantLog2 f) && decide (s.grantBase f < s.grantBase e + 2 ^ s.grantLog2 e)

/-- Indices, heads and gap counts start at 0. -/
def State.ringZero (s : State) (e : Fin 8) : State :=
  let s := ((s.set (R.RING_IDX0_CMD_HEAD e) 0).set (R.RING_IDX0_CPL_TAIL e) 0)
  let s := (s.set (R.RING_IDX1_EVT_TAIL e) 0).set (R.RING_IDX1_SMP_TAIL e) 0
  s.modEz e fun z => { z with cplHead := 0, stOwed := false, evt := { z.evt with head := 0, gaps := 0 }, smp := { z.smp with head := 0, gaps := 0 } }

/-- A write of RING_CTRL.EN. -/
def State.setRingEn (s : State) (e : Fin 8) (on : Bool) : State :=
  let was := s.flag (R.RING_CTRL_EN e)
  let s := s.setFlag (R.RING_CTRL_EN e) on
  if on then
    let s := if s.flag (R.RING_STATUS_LINK_HOLD e) && s.dlActive && s.bmeOf e then
        s.modEz e fun z => { z with linkClearAt := some s.age } else s
    if was then s
    else
      let s := (if s.run e then s else s.ringZero e).modEz e fun z => { z with pollFrom := s.age }
      let clash := s.grantClash e
      let s := if s.ringsBad e || !clash.isEmpty then s.hostError e else s
      s.hostErrors clash
  else s.staleReads e

/-- R147: a write of RING_CTRL.EN. -/
def execRingEn (e : Fin 8) (a : Agent) (on : Bool) (s : State) : Host.Outcome State Fault Refusal :=
  if s.reachesWindow a e then .next (s.setRingEn e on) else .next s

/-- A link fault of easel `e` (R149). -/
def State.linkFaultOf (s : State) (e : Fin 8) (status : Nat) : State :=
  let s := (s.setFlag (R.RING_CTRL_EN e) false).setFlag (R.RING_STATUS_LINK_HOLD e) true
  let s := (s.modEz e fun z => { z with linkClearAt := none }).staleReads e
  s.postEasel e 0x41 [0, arg status]

/-- One link fault: the count, and the events to F0 and to each affected easel. -/
def State.linkFault (s : State) (es : List (Fin 8)) : State :=
  let status := (s.word R.LINK_STATUS_SPEED).toNat
  let s := es.foldl (fun s e => s.linkFaultOf e status) s
  (s.bumpS R.LINK_STATUS_LINK_FAULT_CNT).postF0 0x41 [0, arg status]

/-- R149: the link leaves DL_Active, which also resets every function's configuration, or Bus Master Enable of one function
clears. -/
def execLinkFault (cause : LinkCause) (s : State) : Host.Outcome State Fault Refusal :=
  match cause with
  | .dlDown =>
    if s.dlActive then
      let s := { s.setFlag R.LINK_STATUS_DL_ACTIVE false with bme := 0, f0PollStale := s.f0PollStale || s.f0Poll }
      let s := forAll 9 (fun g s => s.resetFn g) s
      .next ((s.setFlag R.F0_RING_CTRL_EN false).linkFault (fins 8))
    else .next s
  | .bmeClear fn =>
    if s.bme.getLsbD fn.val then
      let s := { s with bme := s.bme &&& ~~~BitVec.ofNat 9 (2 ^ fn.val) }
      if h : fn.val = 0 then .next { s with f0PollStale := s.f0PollStale || s.f0Poll }
      else .next (s.linkFault [⟨fn.val - 1, by omega⟩])
    else .next s

/-- R149: the link is in DL_Active, with its speed and width, and the host configures the functions (`bme`: those that become bus
masters). -/
def execLinkUp (speed width : BitVec 2) (bme msixEn msixMask payload256 : BitVec 9) (s : State) :
    Host.Outcome State Fault Refusal :=
  let s := ((s.set R.LINK_STATUS_SPEED speed.toNat).set R.LINK_STATUS_WIDTH width.toNat).setFlag R.LINK_STATUS_DL_ACTIVE true
  let s := { s with bme := s.bme ||| bme }
  .next (forAll 9 (fun (g : Fin 9) s =>
    (s.modFn g fun x => { x with msixEn := msixEn.getLsbD g.val, msixMask := msixMask.getLsbD g.val,
                                 payload256 := payload256.getLsbD g.val }).flushMsix g) s)

end Sys2Proof.Machine
end

