-- ==== Sys2Proof/Machine/Wheel.lean ====
section
/-! DEFINITION. The phase wheel: angle, states, observer words, limp edges, blends, angle events and reference ramps. -/

namespace Sys2Proof.Machine

/-! ## States (R263) -/

def whlIdle : Nat := 0
def whlAcquire : Nat := 1
def whlLocked : Nat := 2
def whlCoast : Nat := 3
def whlLimpBlend : Nat := 4
def whlLimp : Nat := 5
def whlPriBlend : Nat := 6
def whlFail : Nat := 7

def State.whl (s : State) : Nat := s.get R.WHL_STATUS_STATE
def State.freq (s : State) : Nat := s.get R.WHL_FREQ_FREQ

def State.modWheel (s : State) (f : Wheel → Wheel) : State := { s with wheel := f s.wheel }

/-- Does the state fire angle events? -/
def whlFires (st : Nat) : Bool := 2 ≤ st && st ≤ 6

/-- Does easel `e` own the wheel or hold a read grant (R32)? -/
def State.wheelAccess (s : State) (e : Fin 8) : Bool := s.ownerWheel == some e || s.bit R.OWN_WHEEL_GRANT e.val

/-- Posts a wheel event to F0, to the owner and to each easel that holds a grant (R277). -/
def State.postWheel (s : State) (code : Nat) (args : List (BitVec 64)) : State :=
  forAll 8 (fun e s => if s.wheelAccess e then s.postEasel e code args else s) (s.postF0 code args)

/-! ## Angle (R259, R260) -/

/-- ACC in units of 1/125, at fine tick `f` of a tick whose accumulator is `acc`; the angle is the whole part above bit 8. -/
def angleOf (acc freq f : Nat) : Nat := (acc / 256 + freq * f / 32000) % 2 ^ 32

/-- The wheel angle at this fine tick (R259). -/
def State.angle (s : State) : Nat := angleOf s.wheel.acc.toNat s.freq s.fine

/-- The wheel angle `back` fine ticks before the present coarse tick, with no correction in between. -/
def State.angleBefore (s : State) (back : Nat) : Nat :=
  let q := (back + 124) / 125
  angleOf ((s.wheel.acc - BitVec.ofNat 40 (q * s.freq)).toNat) s.freq (q * 125 - back)

/-- FREQ within [FMIN, FMAX] (R260). -/
def State.clampFreq (s : State) (x : Nat) : Nat := min (max x (s.get R.WHL_FMIN_FMIN)) (s.get R.WHL_FMAX_FMAX)

/-- Adds angle units to ACC[39:8]. -/
def State.addAngle (s : State) (d : Int) : State :=
  s.modWheel fun w => { w with acc := w.acc + BitVec.ofInt 40 (d * 256), moved := s.age }

/-- FREQ takes a value, within its bounds. -/
def State.setFreq (s : State) (x : Nat) : State :=
  (s.set R.WHL_FREQ_FREQ (s.clampFreq x)).modWheel fun w => { w with moved := s.age }

/-- The angle and the advance at an age, by advance alone from the present instant, forward or back (R259). -/
def State.ticksOff (s : State) (t : Nat) : Int := (t : Int) - ((s.age : Int) - s.fine)
def State.angleAt (s : State) (t : Nat) : Nat :=
  angleOf (s.wheel.acc + BitVec.ofInt 40 (s.ticksOff t / 125 * s.freq)).toNat s.freq (s.ticksOff t % 125).toNat
def State.advAt (s : State) (t : Nat) : Nat := (s.wheel.adv + s.ticksOff t / 125 * s.freq).toNat

/-! ## Reference ramps (R275) -/

/-- A fraction moved up or down by `n` parts of `d`, within 0 and 1. -/
def Frac.move (x : Frac) (up : Bool) (n d : Nat) : Frac :=
  let y : Frac := if x.den = d then x else ⟨x.num * d, x.den * d⟩
  let k := n * (y.den / d)
  if up then (if y.num + k ≥ y.den then ⟨1, 1⟩ else ⟨y.num + k, y.den⟩)
  else if k ≥ y.num then ⟨0, 1⟩ else ⟨y.num - k, y.den⟩

/-- RT_KEEP as easel `e` has it committed. -/
def State.rtKeep (s : State) (e : Fin 8) : Bool := (Cells.get 0 0x2438F (s.ez e).outs).getLsbD 0

/-- SCALE of easel `e` after `n` coarse ticks in the present wheel state. -/
def State.scaleAfter (s : State) (e : Fin 8) (n : Nat) : Frac :=
  let x := s.wheel.scale[e]
  let st := s.whl
  if st = whlIdle ∨ st = whlAcquire ∨ st = whlFail then ⟨0, 1⟩
  else if s.rtKeep e = true then x
  else if st = whlLimpBlend ∨ st = whlPriBlend then x
  else
    let up := st != whlCoast
    let t := s.get R.WHL_RAMP_RAMP_T
    if n = 0 then x else if t = 0 then (if up then ⟨1, 1⟩ else ⟨0, 1⟩) else x.move up n (1000 * t)

/-- SCALE of easel `e` in S40.32, rounded under R86. -/
def State.scaleWord (s : State) (e : Fin 8) : Word :=
  let x := s.wheel.scale[e]
  BitVec.ofInt 40 (roundDiv (x.num * 2 ^ 32) x.den)

/-- `n` coarse ticks of the wheel: ACC and the advance (R259, R260), QUAL_TURNS (R269) and every SCALE (R275). -/
def State.wheelTicks (s : State) (n : Nat) : State :=
  let w := s.wheel
  let scale := Vector.ofFn fun e => s.scaleAfter e n
  let adv := w.adv + n * s.freq
  let s := { s with wheel := { w with acc := w.acc + BitVec.ofNat 40 (n * s.freq), adv := adv, scale := scale } }
  if s.whl = whlLimp ∨ s.whl = whlFail then s.set R.WHL_STATUS_QUAL_TURNS (min 8 ((adv - w.qualAdv) / 2 ^ 40)) else s

/-! ## State changes (R263, R264, R271) -/

/-- Disarms every armed event. -/
def State.disarm (s : State) : State :=
  s.modWheel fun w => { w with slots := w.slots.map fun x => { x with armed := none } }

/-- Every SCALE is 0 (R275). -/
def State.noScale (s : State) : State := s.modWheel fun w => { w with scale := Vector.replicate 8 ⟨0, 1⟩ }

/-- The pulses of entry into FAIL (R264). -/
def State.failPulses (s : State) : State :=
  forAll 8 (fun k s => if s.get (R.WHL_ECTL_MODE k) = 2 then s.pulse (0xD0 + k.val) else s) s

/-- Enters a state with a cause. -/
def State.wheelEnter (s : State) (st cause : Nat) : State :=
  let old := s.whl
  let s := (s.set R.WHL_STATUS_STATE st).set R.WHL_STATUS_QUAL_TURNS 0
  let s := s.modWheel fun w =>
    { w with entryAdv := w.adv, good := 0, bad := 0, qualAdv := w.adv, qualGood := false, validAdv := w.adv, moved := s.age }
  let s := if st = whlCoast ∨ st = whlFail then
      (s.modWheel fun w => { w with edges := [], badEdges := 0 }).set R.WHL_LSTAT_EDGES 0 else s
  let s := if st = whlCoast then s.bumpS R.WHL_STATUS_LOSS_CNT else if st = whlFail then s.bumpS R.WHL_STATUS_FAIL_CNT else s
  let s := if st = whlIdle ∨ st = whlAcquire ∨ st = whlFail then s.disarm.noScale else s
  let s := if st = whlFail then s.failPulses else s
  s.postWheel 0x400 [arg st, arg old, arg cause, arg s.angle]

/-- A blend starts toward an offset with a frequency (R268). -/
def State.blendStart (s : State) (st cause : Nat) (delta : Int) (freq : Nat) : State :=
  let s := s.setFreq freq
  let s := s.modWheel fun w => { w with delta := delta, blendAdv := w.adv, blendK := 0 }
  s.wheelEnter st cause

/-- The owner stops, by RUN or by an easel reset (R263, cause 3). -/
def State.wheelOwnerStops (s : State) (e : Fin 8) : State :=
  if s.ownerWheel = some e ∧ s.whl = whlLocked then s.wheelEnter whlCoast 3 else s

/-! ## Residual samples (R262, R269) -/

/-- The sample at a downbeat of the owner, from the RESID made real there. -/
def State.residSample (s : State) (resid : Option Word) : State :=
  let bad := match resid with
    | some r => decide (r.toNat > s.get R.WHL_BND_LOSS_BND * 65536)
    | none => true
  let good := match resid with
    | some r => decide (r.toNat ≤ s.get R.WHL_BND_LOCK_BND * 65536)
    | none => false
  let w := s.wheel
  let s := if s.whl = whlAcquire then s.modWheel fun w => { w with good := if good then w.good + 1 else if bad then 0 else w.good }
    else if s.whl = whlLocked then s.modWheel fun w => { w with bad := if bad then w.bad + 1 else if good then 0 else w.bad }
    else if s.whl = whlLimp ∨ s.whl = whlFail then
      if good then s.modWheel fun w => { w with qualGood := true }
      else (s.modWheel fun w => { w with qualAdv := w.adv, qualGood := false }).set R.WHL_STATUS_QUAL_TURNS 0
    else s
  if s.whl = whlAcquire ∧ s.wheel.good ≥ s.get R.WHL_CTRL_LOCK_N ∧ w.good < s.wheel.good then s.wheelEnter whlLocked 1
  else if s.whl = whlLocked ∧ s.wheel.bad ≥ s.get R.WHL_CTRL_LOSS_N ∧ w.bad < s.wheel.bad then s.wheelEnter whlCoast 2
  else s

/-! ## Observer words (R261) -/

/-- SLEW in angle units. -/
def State.slew (s : State) : Int := s.get R.WHL_SLEW_SLEW_MAX * 65536

/-- The wheel acts on the real words of the owner's last commit. -/
def State.observe (s : State) : State :=
  let w := s.wheel
  let applies := s.whl = whlAcquire ∨ s.whl = whlLocked
  let s := match w.newCorr with
    | some c => if applies then s.addAngle (clampInt c.toInt (-s.slew) s.slew)
                else s.modWheel fun w => { w with recCorr := c.toInt }
    | none => s
  let s := match w.newFreq with
    | some f => if applies then s.setFreq f.toNat
                else s.modWheel fun w => { w with recFreq := f.toNat }
    | none => s
  let s := match w.newResid with
    | some r => s.modWheel fun w => { w with recResid := r.toNat }
    | none => s
  s.modWheel fun w => { w with newCorr := none, newFreq := none, newResid := none }

/-! ## Limp edges (R265 to R267) -/

/-- Is the interval between opposite edges within tolerance of half a period? -/
def State.halfPeriodOk (s : State) (interval : Nat) : Bool :=
  decide (((2 * s.freq * interval : Int) - 2 ^ 40 * 125).natAbs * 256 ≤ 2 ^ 40 * 125 * s.get R.WHL_LIMP2_LIMP_TOL)

/-- The frequency whose full period lasts `t` fine ticks (R266). -/
def State.freqOfPeriod (s : State) (t : Nat) : Nat := s.clampFreq (roundDiv (2 ^ 40 * 125) t).toNat

/-- An angle difference as a signed value. -/
def signedAngle (x : Int) : Int := (BitVec.ofInt 32 x).toInt

/-- The instant of an edge seen at the coarse tick `t`. -/
def State.edgeTime (s : State) (t : Time) : Time := t - BitVec.ofNat 48 (s.get R.WHL_LIMP2_LIMP_DLY)

/-- Target angle minus wheel angle at the instant of an edge seen at the coarse tick `t`. -/
def State.edgeError (s : State) (rising : Bool) (t : Time) : Int :=
  let target := s.get R.WHL_LIMP_LIMP_ANG + if rising then 0 else 2 ^ 31
  let back := ticksFrom t (s.time - BitVec.ofNat 48 s.fine) + s.get R.WHL_LIMP2_LIMP_DLY
  signedAngle ((target : Int) - s.angleBefore back)

/-- Records an edge, newest first. -/
def State.keepEdge (s : State) (rising : Bool) (t : Time) : State :=
  s.modWheel fun w => { w with edges := ((rising, s.edgeTime t) :: w.edges).take 4 }

/-- An edge that is not valid: it is counted and posted, and restarts the pattern (R265). In LIMP the edges before it stay: the
next valid edge measures the period from one of them (R267). -/
def State.badEdge (s : State) (rising : Bool) (t : Time) (interval : Nat) : State :=
  let s := s.bumpS R.WHL_LSTAT_LIMP_BAD_CNT
  let s := s.postWheel 0x401 [0, arg rising.toNat, arg interval]
  let s := if s.whl = whlLimp then s else s.modWheel fun w => { w with edges := [] }
  let s := (s.keepEdge rising t).modWheel fun w => { w with badEdges := w.badEdges + 1 }
  s.set R.WHL_LSTAT_EDGES 1

/-- The period that an edge ends: since the newest of the edges before it with its polarity. -/
def State.edgePeriod (s : State) (rising : Bool) (t : Time) : Option Nat :=
  (s.wheel.edges.find? fun x => x.1 == rising).map fun x => ticksFrom x.2 (s.edgeTime t)

/-- A valid edge in COAST or FAIL; the third one qualifies the pattern (R266). -/
def State.patternEdge (s : State) (rising : Bool) (t : Time) : State :=
  let per := s.edgePeriod rising t
  let s := (s.keepEdge rising t).modWheel fun w => { w with badEdges := 0, validAdv := w.adv }
  let s := s.set R.WHL_LSTAT_EDGES (min 3 (s.get R.WHL_LSTAT_EDGES + 1))
  match per with
  | some per =>
    if s.get R.WHL_LSTAT_EDGES = 3 ∧ s.flag R.WHL_CTRL_LIMP_EN = true then
      s.blendStart whlLimpBlend 4 (s.edgeError rising t) (s.freqOfPeriod per)
    else s
  | none => s

/-- A valid edge in LIMP (R267). -/
def State.limpEdge (s : State) (rising : Bool) (t : Time) : State :=
  let e := s.edgeError rising t
  let per := s.edgePeriod rising t
  let s := (s.keepEdge rising t).modWheel fun w => { w with badEdges := 0, validAdv := w.adv }
  let s := s.addAngle (roundDiv e (2 ^ s.get R.WHL_CTRL_LIMP_SH))
  match per with
  | some per => s.setFreq (s.freqOfPeriod per)
  | none => s

/-- An edge of the second phase, seen at the coarse tick `t`, in the present state. -/
def State.edge (s : State) (rising : Bool) (t : Time) : State :=
  let st := s.whl
  if st = whlCoast ∨ st = whlFail ∨ st = whlLimp then
    match s.wheel.edges with
    | [] => if st = whlLimp then s.keepEdge rising t else s.patternEdge rising t
    | (pol, u) :: _ =>
      let interval := ticksFrom u (s.edgeTime t)
      if pol ≠ rising ∧ s.halfPeriodOk interval = true then
        if st = whlLimp then s.limpEdge rising t else s.patternEdge rising t
      else
        let s := s.badEdge rising t interval
        if st = whlLimp ∧ s.wheel.badEdges ≥ 2 then s.wheelEnter whlCoast 5 else s
  else if st = whlLimpBlend then s.keepEdge rising t
  else s

/-- Filtered ABOVE of the limp comparator has changed at this coarse tick: an edge to take (R265). -/
def State.seeEdge (s : State) (before : Bool) : State :=
  let now := s.flag (R.CMP_STATUS_ABOVE (s.get R.WHL_CTRL_LIMP_CMP))
  if now = before ∨ s.flag R.WHL_CTRL_LIMP_EN = false then s
  else s.modWheel fun w => { w with seen := w.seen ++ [(now, s.time)] }

/-! ## Blends (R268) -/

/-- Step `k` of a blend; the last one ends it. -/
def State.blendStep (s : State) : State :=
  let w := s.wheel
  let k := w.blendK + 1
  let s := s.addAngle (roundDiv (w.delta * k) 64 - roundDiv (w.delta * (k - 1)) 64)
  let s := s.modWheel fun w => { w with blendK := k }
  if k < 64 then s else s.wheelEnter (if s.whl = whlLimpBlend then whlLimp else whlLocked) 8

/-- Fine ticks until the advance reaches `target`, at the present FREQ. -/
def State.ticksToAdvance (s : State) (target : Nat) : Nat :=
  if target ≤ s.wheel.adv ∨ s.freq = 0 then 0
  else (target - s.wheel.adv + s.freq - 1) / s.freq * 125 - s.fine

/-! ## Angle events (R270 to R272) -/

/-- The angle and the offset of event `k`: a slot, or an ADC sequence. -/
def State.eventAngle (s : State) (k : Fin 40) : Nat :=
  if k.val < 8 then s.get (R.WHL_EANG_ANGLE k) else s.get (R.ADC_ANG_ANGLE ((k.val - 8) / 4) ((k.val - 8) % 4))

def State.eventOffset (s : State) (k : Fin 40) : Int :=
  let x := if k.val < 8 then s.get (R.WHL_ECTL_OFFSET k) else s.get (R.ADC_TOFS_OFFSET ((k.val - 8) / 4) ((k.val - 8) % 4))
  (BitVec.ofNat 24 x).toInt

/-- A setting of angle events has changed: no arming lies before it (R273). -/
def State.eventSet (s : State) : State := s.modWheel fun w => { w with moved := s.age }

/-- Is event `k` set up for an angle: MODE = ANGLE, or an enabled sequence with SRC = ANGLE? -/
def State.eventOn (s : State) (k : Fin 40) : Bool :=
  if k.val < 8 then s.get (R.WHL_ECTL_MODE k) == 1
  else s.get (R.ADC_SEQ_SRC ((k.val - 8) / 4) ((k.val - 8) % 4)) == 2 && s.bit (R.ADC_PCTRL_SEQ_EN ((k.val - 8) / 4)) ((k.val - 8) % 4)

/-- Does the angle lie in the window of event `k` at an age, by advance alone? -/
def State.inWindow (s : State) (k : Fin 40) (t : Nat) : Bool :=
  let d := (s.eventAngle k + 2 ^ 32 - s.angleAt t) % 2 ^ 32
  decide (0 < d ∧ d ≤ 2 ^ 30)

/-- The first instant from which event `k` may arm: nothing has moved the wheel since, and half a turn has passed since its last
arming (R271). -/
def State.armFrom (s : State) (k : Fin 40) : Nat :=
  max s.wheel.moved (match s.wheel.slots[k].armAdv with
    | some a =>
      let ticks : Int := -(((s.wheel.adv : Int) - (a + 2 ^ 39 : Nat)) / s.freq)
      ((s.age : Int) - s.fine + 125 * ticks).toNat
    | none => 0)

/-- The first fine tick, at or after an age, at which the angle lies in the window of event `k`: it enters within the coarse tick
before the one at whose start the accumulator has reached the window. -/
def State.firstIn (s : State) (k : Fin 40) (t : Nat) : Option Nat :=
  if s.inWindow k t then some t
  else
    let j := s.ticksOff t / 125
    let acc := (s.wheel.acc + BitVec.ofInt 40 (j * s.freq)).toNat
    let gap : Nat := ((s.eventAngle k + 3 * 2 ^ 30) * 256 + 2 ^ 40 - acc) % 2 ^ 40
    let m : Nat := (gap + s.freq - 1) / s.freq
    let from_ := max t ((s.age : Int) - s.fine + 125 * (j + m - 1)).toNat
    ((List.range 251).find? fun i => s.inWindow k (from_ + i)).map fun i => from_ + i

/-- The fine tick at which event `k` arms, in a state that fires events (R270). -/
def State.armAt (s : State) (k : Fin 40) : Option Nat :=
  if whlFires s.whl && s.eventOn k && decide (s.freq ≠ 0) then s.firstIn k (s.armFrom k) else none

/-- Arms event `k` at an age: the predicted crossing, and a late event at the next fine tick (R270, R272). -/
def State.arm (s : State) (k : Fin 40) (t : Nat) : State :=
  let d := (s.eventAngle k + 2 ^ 32 - s.angleAt t) % 2 ^ 32
  let ahead : Int := ((d * 32000 + s.freq - 1) / s.freq : Nat) + s.eventOffset k
  let late := decide (ahead ≤ 0)
  let at_ := s.timeAt t + BitVec.ofInt 48 (if late then 1 else ahead)
  let s := s.modWheel fun w => { w with slots := upd w.slots k fun _ => ⟨some (at_, late), some (s.advAt t)⟩ }
  if late then
    (s.bumpS R.WHL_LSTAT_LATE_ARM_CNT).postWheel 0x402 [arg k.val, arg d, BitVec.ofInt 64 (s.eventOffset k)]
  else s

/-! ## What a pass reads (R274) -/

/-- The wheel words of an easel at release. -/
def State.wheelSysin (s : State) (e : Fin 8) : List (Nat × TWord) :=
  if s.wheelAccess e then
    let st := s.whl
    let flags := st + (if st = whlCoast then 8 else 0) + (if 4 ≤ st ∧ st ≤ 6 then 16 else 0) + (if st = whlFail then 32 else 0)
    [(0x24210, ⟨BitVec.ofNat 40 s.angle, false⟩), (0x24211, ⟨BitVec.ofNat 40 s.freq, false⟩),
     (0x24212, ⟨BitVec.ofNat 40 flags, false⟩), (0x24213, ⟨s.scaleWord e, false⟩)]
  else (List.range 16).map fun i => (0x24210 + i, ⟨vacantWord, true⟩)

/-! ## Commands -/

/-- R263: a write of WHL_CTRL.EN, which starts the wheel in ACQUIRE or sets it IDLE. -/
def execWheelEn (a : Agent) (on : Bool) (s : State) : Host.Outcome State Fault Refusal :=
  if s.mayEnable a 6 R.WHL_CTRL_EN on && on != s.flag R.WHL_CTRL_EN then
    let s := s.setFlag R.WHL_CTRL_EN on
    if on then
      .next (((s.modWheel fun w => { w with acc := 0 }).setFreq (s.get R.WHL_FNOM_FNOM)).wheelEnter whlAcquire 0)
    else .next (s.wheelEnter whlIdle 0)
  else .next s

/-- R265: the oldest change of filtered ABOVE of the limp comparator is taken as an edge. -/
def execLimpEdge (s : State) : Host.Outcome State Fault Refusal :=
  match s.wheel.seen with
  | (rising, t) :: rest => .next ((s.modWheel fun w => { w with seen := rest }).edge rising t)
  | [] => .next s

end Sys2Proof.Machine
end

