-- ==== Sys2Proof/Machine/Passes.lean ====
section
/-! DEFINITION. A pass between its downbeats: which runs are ready, overrun prediction and slip, landing of inputs, the check,
the verdict, and the plausibility faults (R67 to R79, R95 to R105). -/

namespace Sys2Proof.Machine

/-- Changes the pass of easel `e`, if there is one. -/
def State.modPass (s : State) (e : Fin 8) (f : Pass → Pass) : State :=
  s.modEz e fun z => { z with pass := z.pass.map f }

/-- The image half that serves a pass, and the offset of its entry. -/
def State.passHalf (s : State) (p : Pass) : Half := s.img.half p.half
def State.passEntry (s : State) (e : Fin 8) (p : Pass) : Nat := (s.passHalf p).entry e p.limp

/-- May runs of the pass still start and act: neither slipped nor faulted (R79, R105)? -/
def Pass.live (p : Pass) : Bool := !p.slipped && p.fault.isNone

/-- The runs of easel `e` in progress complete without effect (R31, R79, R105). -/
def State.killRuns (s : State) (e : Fin 8) : State :=
  { s with tiles := s.tiles.map fun t =>
      { t with run := t.run.map fun r => if r.easel = e then { r with dead := true } else r } }

/-- Discards the pass in progress (R36, R81, R113). -/
def State.dropPass (s : State) (e : Fin 8) : State := (s.modEz e fun z => { z with pass := none }).killRuns e

/-! ## Ready runs (R67 to R69) -/

/-- Has the trigger of a segment fired? -/
def Pass.segReady (p : Pass) (seg : Nat) : Bool :=
  if seg ≤ 1 then true else if seg = 2 then p.checked else if seg = 3 then p.repaint else false

/-- The ready runs of tile `t`: easel and header index. -/
def State.readyRuns (s : State) (t : Fin 16) : List (Fin 8 × Nat) :=
  (fins 8).flatMap fun e => match (s.ez e).pass with
    | some p =>
      if p.live then
        let h := s.passHalf p
        ((h.tileRuns t).filter fun i => h.runEasel i == e.val && h.runLimp i == p.limp && !p.started.contains i
          && p.segReady (h.runSeg i)).map fun i => (e, i)
      else []
    | none => []

/-- Of two ready runs of a tile, the one that goes first: lower PRIO, then lower body word index. DESIGN CHOICE: between runs of
the two halves with equal PRIO and equal index, which R68 does not order, the lower easel goes first (log entry 90). -/
def State.goesFirst (s : State) (x y : Fin 8 × Nat) : Bool :=
  let prio (c : Fin 8 × Nat) : Nat := match (s.ez c.1).pass with
    | some p => (s.passHalf p).runPrio c.2
    | none => 0
  prio x < prio y || (prio x == prio y && x.2 < y.2)

/-- The run that an idle tile starts. -/
def State.nextRun (s : State) (t : Fin 16) : Option (Fin 8 × Nat) :=
  (s.readyRuns t).foldl (fun best c => match best with
    | some b => if s.goesFirst c b then some c else some b
    | none => some c) none

/-- Have all runs of a segment of the pass finished? -/
def State.segDone (s : State) (e : Fin 8) (p : Pass) (seg : Nat) : Bool :=
  ((s.passHalf p).segRuns e p.limp seg).all fun i => p.finished.contains i

/-! ## Slip and prediction (R78, R79) -/

/-- The pass slips. -/
def State.slipPass (s : State) (e : Fin 8) : State :=
  match (s.ez e).pass with
  | some p => if p.live then (s.modPass e fun p => { p with slipped := true }).killRuns e else s
  | none => s

/-- Have the CHECK runs of a pass started (R78)? The CHECK of an entry without CHECK runs starts with its trigger. -/
def State.checking (s : State) (e : Fin 8) (p : Pass) : Bool :=
  let runs := (s.passHalf p).segRuns e p.limp 2
  p.checked && (runs.isEmpty || runs.any fun i => p.started.contains i)

/-- Does the predicted finish exceed the fence? Exact, in units of 1/409,600 ns. The HU left are the slot words of the pass's
own runs on the critical tile (DEDUCED, entry 43). -/
def State.overrun (s : State) (e : Fin 8) (p : Pass) : Bool :=
  let h := s.passHalf p
  let o := s.passEntry e p
  let t := s.get R.TEMPO_TEMPO
  let hu (n : Nat) := n * t * 100
  let tick (n : Nat) := n * 32768
  let now := tick (ticksFrom p.openTime s.time)
  let words (segs : List Nat) : Nat := h.segWords e p.limp (h.critTile o) segs
  let f := if p.repaint then now + hu (words [3] - p.huRepaint)
    else if s.checking e p then now + hu ((words [2] - p.huCheck) + h.huRepaint o)
    else max (now + hu (words [0, 1] - p.huPre)) (tick (h.lastDeadline o)) + hu (h.huCheck o + h.huRepaint o)
  decide (t ≠ 0xFFFF) && decide (f + 40 * 409600 > tick (h.entPeriod o))

/-- Predicts the finish of a pass that is not final, and slips it where it must (R78, R79). -/
def State.predict (s : State) (e : Fin 8) : State :=
  match (s.ez e).pass with
  | some p => if p.live && p.final.isNone && s.overrun e p then s.slipPass e else s
  | none => s

/-! ## Faults (R104, R105) -/

/-- A fault of class P or F discards the pass; the first fault of a pass is the one recorded. -/
def State.raiseFault (s : State) (e : Fin 8) (c : FaultClass) (i : Nat) : State :=
  (s.modPass e fun p => { p with fault := some (p.fault.getD (c, i)) }).killRuns e

/-! ## Landing (R95, R199, R104 class F) -/

/-- Input `i` of the pass takes a landed value. -/
def State.landOne (s : State) (e : Fin 8) (i : Nat) (val : Word) (flags : BitVec 8) : State :=
  let s := s.writeMem e (landBase + i) ⟨val, false⟩
  let s := s.modPass e fun p => { p with landed := p.landed ||| BitVec.ofNat 64 (2 ^ i) }
  if flags.getLsbD 0 && s.flag (R.PCTL_F_EN e i) then s.raiseFault e .f i else s

/-- The fine ticks from the opening downbeat to now. -/
def State.sinceOpen (s : State) (p : Pass) : Nat := ticksFrom p.openTime s.time

/-- An input that lands after its DEADLINE makes its pass slip (R79). -/
def State.landLate (s : State) (e : Fin 8) (p : Pass) (i : Nat) : State :=
  if (s.passHalf p).inDeadline (s.passEntry e p) i < s.sinceOpen p then s.slipPass e else s

/-- An entry of the pass's period lands: every input of its TAG that has not landed yet takes it. -/
def State.landTag (s : State) (e : Fin 8) (tag : BitVec 16) (val : Word) (flags : BitVec 8) : State :=
  match (s.ez e).pass with
  | some p =>
    let h := s.passHalf p
    let o := s.passEntry e p
    (List.range (h.nInputs o)).foldl (fun s i =>
      if h.inTag o i = tag ∧ p.landed.getLsbD i = false then (s.landLate e p i).landOne e i val flags else s) s
  | none => s

/-- Have all inputs landed? -/
def State.allLanded (s : State) (e : Fin 8) (p : Pass) : Bool :=
  (List.range ((s.passHalf p).nInputs (s.passEntry e p))).all fun i => p.landed.getLsbD i

/-! ## The check (R96 to R98, R100, R104 class P) -/

/-- The pass becomes final. -/
def State.finalPass (s : State) (e : Fin 8) : State := s.modPass e fun p => { p with final := some s.time }

/-- Was the pass final at the fence (R27, R79)? -/
def State.finalInTime (s : State) (e : Fin 8) (p : Pass) : Bool :=
  match p.final with
  | some t => p.live && decide (ticksFrom p.openTime t + 500 ≤ (s.passHalf p).entPeriod (s.passEntry e p))
  | none => false

/-- The REPAINT runs become ready; a pass without any is final at once. -/
def State.startRepaint (s : State) (e : Fin 8) : State :=
  match (s.ez e).pass with
  | some p =>
    let s := s.modPass e fun p => { p with repaint := true }
    if ((s.passHalf p).segRuns e p.limp 3).isEmpty then s.finalPass e else s
  | none => s

/-- The verdict forms (R96 to R98). -/
def State.formVerdict (s : State) (e : Fin 8) : State :=
  match (s.ez e).pass with
  | some p =>
    let good := !p.miss && !p.chkFail
    let s := s.modPass e fun p => { p with verdict := some good }
    if !(s.passHalf p).spec (s.passEntry e p) then s.startRepaint e
    else if good then (s.bumpW (R.SPEC_CNT_COUNT e) (R.ENG_STATUS_SPEC_OVF e)).finalPass e
    else
      let s := s.bumpW (R.SCRAPE_CNT_COUNT e) (R.ENG_STATUS_SCRAPE_OVF e)
      let s := s.modEz e fun z => { z with shadow := [] }
      (s.startRepaint e).predict e
  | none => s

/-- The compare of input `i` with its words: the input miss, and the class P counter, which moves at every compare; PCTL.N = 0
raises no fault (R96, R104). DESIGN CHOICE: the counter stays at 255; the chapter gives it no class (log entry 96). -/
def State.compareWords (s : State) (e : Fin 8) (p : Pass) (i : Nat) (pred land : TWord) : State :=
  let diff := (land.val.toInt - pred.val.toInt).natAbs
  let s := if pred.taint || decide (diff > (s.passHalf p).inTol (s.passEntry e p) i) then
      s.modPass e fun p => { p with miss := true } else s
  if pred.taint then s
  else if diff ≤ s.get2 (R.PLB_HI_PLB_HI e i) (R.PLB_LO_PLB_LO e i) then s.set (R.PCTL_MISS e i) 0
  else
    let s := s.set (R.PCTL_MISS e i) (min 255 (s.get (R.PCTL_MISS e i) + 1))
    if s.get (R.PCTL_N e i) ≠ 0 ∧ s.get (R.PCTL_N e i) ≤ s.get (R.PCTL_MISS e i) then s.raiseFault e .p i else s

/-- The compare of input `i`: PRED is read, then LAND (R96). -/
def State.compareInput (s : State) (e : Fin 8) (p : Pass) (i : Nat) : State :=
  let pred := s.readMem e (predBase + i)
  let land := pred.2.readMem e (landBase + i)
  land.2.compareWords e p i pred.1 land.1

/-- May the CHECK trigger of easel `e` fire (R67)? -/
def State.checkReady (s : State) (e : Fin 8) (p : Pass) : Bool :=
  p.live && !p.checked && p.final.isNone && s.allLanded e p && s.segDone e p 1

/-- The CHECK trigger fires: every input is compared; an entry without CHECK runs forms its verdict at once. DESIGN CHOICE: a
pass in which a class P fault arises there forms no verdict, so that neither SCRAPE_CNT nor SPEC_CNT counts it (log entry 97). -/
def State.checkFire (s : State) (e : Fin 8) (p : Pass) : State :=
  let s := s.modPass e fun p => { p with checked := true }
  let s := (List.range ((s.passHalf p).nInputs (s.passEntry e p))).foldl (fun s i => s.compareInput e p i) s
  match (s.ez e).pass with
  | some q => if q.live && ((s.passHalf p).segRuns e p.limp 2).isEmpty then s.formVerdict e else s
  | none => s

/-- R96: the CHECK trigger; where its condition does not hold, the trigger has not come. -/
def execCheckTrigger (e : Fin 8) (s : State) : Host.Outcome State Fault Refusal :=
  match (s.ez e).pass with
  | some p => if s.checkReady e p then .next (s.checkFire e p) else .next s
  | none => .next s

end Sys2Proof.Machine
end

