-- ==== Sys2Proof/Machine/Sources.lean ====
section
/-! DEFINITION. The sources of the event router: what each index reads (R251, R277, R295, R338, R367). -/

namespace Sys2Proof.Machine

/-- Does any fan stand in a state? -/
def State.anyFan (s : State) (st : Nat) : Bool := (List.range 4).any fun n => s.get (R.FAN_STATUS_STATE n) == st

/-- Is a supply below its warning level, unfiltered (R367)? -/
def State.supplyLow (s : State) : Bool := s.sup.supplies.any fun x => x == .belowWarning || x == .belowReset

/-- A supervision source, 0xE3 to 0xEA. -/
def State.supSource (s : State) (i : Nat) : Bool :=
  if i = 0xE3 then s.flag R.SUP_STATUS_HOLD
  else if i = 0xE4 then s.flag R.SAFE_STATUS_SAFE_STATE
  else if i = 0xE5 then s.flag R.SAFE_STATUS_KILL_IN
  else if i = 0xE6 then s.flag R.DWD_STATUS_FAULT
  else if i = 0xE8 then s.flag R.SUP_STATUS_CLKMON
  else if i = 0xE9 then s.flag R.SUP_STATUS_VBAT_LOST
  else if i = 0xEA then s.supplyLow
  else false

/-- An auxiliary source, 0xF0 to 0xF6. -/
def State.auxSource (s : State) (i : Nat) : Bool :=
  if i = 0xF0 then s.anyFan 5
  else if i = 0xF1 then s.anyFan 4
  else if i = 0xF2 then s.get (R.CLMP_STATUS_DELAYED 0) != 0 || s.get (R.CLMP_STATUS_DELAYED 1) != 0
  else if i = 0xF3 then s.flag R.DSCH_STATUS_ON
  else if i = 0xF4 then s.flag R.DSCH_STATUS_CUT
  else if i = 0xF5 then s.flag R.DSCH_STATUS_FAIL
  else if i = 0xF6 then s.flag R.DSCH_STATUS_HV_DISC
  else false

/-- A grid source, 0xF8 to 0xFD. -/
def State.gridSource (s : State) (i : Nat) : Bool :=
  let act := s.get R.GF_STATUS_ACTION
  if i = 0xF8 then s.flag R.GF_STATUS_TRIPPED
  else if i = 0xF9 then act == 2 || act == 3
  else if i = 0xFA then act == 1
  else if i = 0xFB then s.flag R.GF_STATUS_ISLANDED
  else if i = 0xFC then s.get R.GF_STATUS_EST != 0
  else if i = 0xFD then match s.grid.tap with
    | some x => x.inForce == 1 || x.inForce == 2
    | none => false
  else false

/-- What source `i` of the router reads. -/
def State.source (s : State) (i : Nat) : Bool :=
  if i < 0x40 then s.flag (R.CMP_STATUS_ABOVE i)
  else if i < 0x80 then s.flag (R.CMP_STATUS_BELOW (i - 0x40))
  else if i < 0xC0 then s.flag (R.LEG_STATUS_FLT_IN (i - 0x80))
  else s.router.pulses.getLsbD i || s.supSource i || s.auxSource i || s.gridSource i

end Sys2Proof.Machine
end

