-- ==== Sys2Proof/Machine/AuxDrives.lean ====
section
/-! DEFINITION. Fans, coils with their clamp meters, and the active discharge (Auxiliary Drives and Wiring Energy Limits). -/

namespace Sys2Proof.Machine

/-! ## Fans (R320 to R324) -/

def fanOff : Nat := 0
def fanSpin : Nat := 1
def fanPause : Nat := 2
def fanRun : Nat := 3
def fanTachless : Nat := 4
def fanFault : Nat := 5

/-- 10 ms in fine ticks. -/
def ms10 : Nat := 125000000

/-- 1 ms in fine ticks. -/
def ms1 : Nat := 12500000

def State.fan (s : State) (n : Fin 4) : Fan := s.aux.fans[n]
def State.modFan (s : State) (n : Fin 4) (f : Fan → Fan) : State := { s with aux := { s.aux with fans := upd s.aux.fans n f } }
def State.fanState (s : State) (n : Fin 4) : Nat := s.get (R.FAN_STATUS_STATE n)
def State.fanAvg (s : State) (n : Fin 4) : Nat := s.get (R.FAN_STATUS_I_AVG n)

/-- Posts a fan event to the fan's owner, or to F0. -/
def State.postFan (s : State) (n : Fin 4) (code : Nat) (args : List (BitVec 64)) : State :=
  s.postOwner (s.owner (R.OWN_FAN n)) code (arg n.val :: args)

/-- The drive that the state table gives, S40.32 (R323). -/
def State.fanDrive (s : State) (n : Fin 4) : Nat :=
  let st := s.fanState n
  if st = fanSpin then max (s.fan n).req (s.get (R.FAN_CFG_KICK_D n) * 2 ^ 24)
  else if st = fanRun ∨ st = fanTachless then (s.fan n).req
  else 0

/-- Enters a state; windows and edge counts start there. -/
def State.fanEnter (s : State) (n : Fin 4) (st : Nat) : State :=
  (s.set (R.FAN_STATUS_STATE n) st).modFan n fun x => { x with entry := s.age, edges := [], lossFrom := s.age }

/-- Is the current in band (R322)? -/
def State.fanInBand (s : State) (n : Fin 4) : Bool :=
  decide (s.get (R.FAN_ILIM_I_LO n) ≤ s.fanAvg n) && decide (s.fanAvg n ≤ s.get (R.FAN_ILIM_I_STALL n))

/-- A stall (R323). -/
def State.fanStall (s : State) (n : Fin 4) : State :=
  let s := s.bumpS (R.FAN_STATUS_STALL_CNT n)
  let k := s.get (R.FAN_STATUS_KICKS n)
  if k < 3 then
    ((s.set (R.FAN_STATUS_KICKS n) (k + 1)).fanEnter n fanPause).postFan n 0x700 [arg (k + 1), arg (s.fanAvg n)]
  else
    ((s.fanEnter n fanFault).postFan n 0x700 [arg k, arg (s.fanAvg n)]).postFan n 0x701 [arg (s.fanAvg n)]

/-- The tach is missing and the current is in band. -/
def State.fanTachGone (s : State) (n : Fin 4) : State :=
  (s.fanEnter n fanTachless).postFan n 0x702 [arg (s.fanAvg n)]

/-- The request of fan `n`: the committed word of its owner, clamped to 0 to 1.0; 0 without an owner (R318, R337). -/
def State.fanReq (s : State) (n : Fin 4) : Nat :=
  match s.owner (R.OWN_FAN n) with
  | some e => (clampInt (Cells.get 0 (0x24390 + n.val) (s.ez e).outs).toInt 0 one32).toNat
  | none => 0

/-- Fan `n` takes its request (R323). -/
def State.fanApply (s : State) (n : Fin 4) : State :=
  let req := s.fanReq n
  let s := s.modFan n fun x => { x with req := req }
  if req = 0 then
    if s.fanState n = fanOff then s.set (R.FAN_STATUS_KICKS n) 0 else (s.fanEnter n fanOff).set (R.FAN_STATUS_KICKS n) 0
  else if s.fanState n = fanOff then s.fanEnter n fanSpin
  else s

/-- TACH_N of a fan. -/
def State.tachN (s : State) (n : Fin 4) : Nat := s.get (R.FAN_CFG_TACH_N_M1 n) + 1

/-- SPIN_T of a fan in fine ticks. -/
def State.spinT (s : State) (n : Fin 4) : Nat := s.get (R.FAN_TIME_SPIN_T n) * ms10

/-- Have TACH_N valid edges come within SPIN_T: in SPIN of the entry, in TACHLESS of each other? -/
def State.tachBack (s : State) (n : Fin 4) : Bool :=
  let x := s.fan n
  decide (s.tachN n ≤ x.edges.length) &&
    (if s.fanState n = fanSpin then decide (s.age ≤ x.entry + s.spinT n)
     else decide (s.age ≤ (x.edges.getD (s.tachN n - 1) 0) + s.spinT n))

/-- A valid edge of TACHn (R321, R323). -/
def State.fanEdge (s : State) (n : Fin 4) : State :=
  let s := s.modFan n fun x =>
    { x with edges := (s.age :: x.edges).take 4, lastEdge := some s.age, lossFrom := s.age,
             period := match x.lastEdge with
               | some t => s.age / 125 - t / 125
               | none => x.period }
  if s.fanState n = fanSpin ∧ s.tachBack n = true then (s.fanEnter n fanRun).set (R.FAN_STATUS_KICKS n) 0
  else if s.fanState n = fanTachless ∧ s.tachBack n = true then
    (s.fanEnter n fanRun).postFan n 0x703 [arg ((s.fan n).period / 100)]
  else s

/-- The coarse tick at which the level of TACHn counts: the 1,000th that samples it (R321). -/
def Fan.countAt (x : Fan) : Nat := x.pinAt + 125 * 999

/-- The level of TACHn counts, once its tick has passed. -/
def State.tachCount (s : State) (n : Fin 4) : State :=
  let x := s.fan n
  if x.level = x.pin ∨ s.age - s.fine < x.countAt then s
  else s.ago (s.age - x.countAt) fun s =>
    let s := s.modFan n fun x => { x with level := x.pin }
    if x.pin then s else s.fanEdge n

/-- The tach period of SYSIN in µs (R319). -/
def State.fanPeriodUs (s : State) (n : Fin 4) : Nat :=
  match (s.fan n).lastEdge with
  | some t => if s.age - t ≤ s.get (R.FAN_TIME_TLOSS_T n) * ms10 then min 0xFFFF ((s.fan n).period / 100) else 0
  | none => 0

/-! ## Coils and clamps (R325 to R329) -/

def State.coil (s : State) (n : Fin 8) : Coil := s.aux.coils[n]
def State.modCoil (s : State) (n : Fin 8) (f : Coil → Coil) : State := { s with aux := { s.aux with coils := upd s.aux.coils n f } }

/-- The group of a coil: HSA drives COIL0 to COIL3, HSB COIL4 to COIL7 (DEDUCED, log entry 30). -/
def coilGroup (n : Fin 8) : Fin 2 := ⟨n.val / 4, by omega⟩

/-- The coils of a group. -/
def groupCoils (g : Fin 2) : List (Fin 8) := (fins 8).filter fun n => coilGroup n == g

/-- An energy in µJ as units of 10 pJ. -/
def microJ : Nat := 100000

/-- Coil `n` takes the committed bit of its owner; 0 without an owner (R318, R337). -/
def State.coilTake (s : State) (n : Fin 8) : State :=
  let cmd := match s.owner (R.OWN_COIL n) with
    | some e => (Cells.get 0 0x24394 (s.ez e).outs).getLsbD n.val
    | none => false
  s.modCoil n fun x => { x with cmd := cmd }

/-- The request that acts on coil `n`: the one taken last, unless it is forced off by FOFF_SRC (R329) or by the safe state
(R356). -/
def State.coilWant (s : State) (n : Fin 8) : Bool :=
  (s.coil n).cmd && !(s.flag (R.COIL_CFG_FOFF_EN n) && s.source (s.get (R.COIL_CFG_FOFF_SRC n)))
    && !(s.flag R.SAFE_STATUS_SAFE_STATE && s.flag R.SAFE_CTRL_COILS)

/-- Sets or clears the DELAYED bit of coil `n`. -/
def State.setDelayed (s : State) (n : Fin 8) (on : Bool) : State :=
  (s.setBit (R.CLMP_STATUS_DELAYED (coilGroup n)) (n.val % 4) on).modCoil n fun x => { x with delayed := on }

/-- Coil `n` is taken on (R325, R326): CLSn waits for HS_LEAD where the high side turns on at this tick, with this coil or with
another of its group. -/
def State.coilOn (s : State) (n : Fin 8) : State :=
  let g := coilGroup n
  let was := s.flag (R.CLMP_STATUS_HS_ON g)
  let lead := (!was || s.aux.hsAt[g] == s.age) && s.get R.COIL_PWM_HS_LEAD != 0
  let s := if was then s
    else { s.setFlag (R.CLMP_STATUS_HS_ON g) true with aux := { s.aux with hsAt := upd s.aux.hsAt g fun _ => s.age } }
  s.modCoil n fun x => { x with energised := true, lead := lead, hold := false, since := s.age, due := none }

/-- CLSn at this instant: fully on during pull-in, then high for (HOLD_D + 1) ÷ 256 of each period CPER from the end of the
pull-in (R325). -/
def State.clsHigh (s : State) (n : Fin 8) : Bool :=
  let x := s.coil n
  let per := s.get R.COIL_PWM_CPER
  let high := (roundDiv ((s.get (R.COIL_CFG_HOLD_D n) + 1) * per) 256).toNat
  x.energised && !x.lead && (!x.hold || decide ((s.age - x.since) / 125 % per < high))

/-- Is there room in the clamp for the turn-off of coil `n` (R327)? -/
def State.clampRoom (s : State) (n : Fin 8) : Bool :=
  decide (s.aux.clamp[coilGroup n] + s.get (R.COIL_FB_FB_E n) * microJ ≤ s.get (R.CLMP_CAP_CLAMP_CAP (coilGroup n)) * microJ)

/-- The turn-off of coil `n` is performed (R327): CLS low, the meter gains FB_E, the high side follows (R326). -/
def State.coilOff (s : State) (n : Fin 8) (due : Nat) : State :=
  let g := coilGroup n
  let delayed := (s.coil n).delayed
  let s := { s with aux := { s.aux with clamp := upd s.aux.clamp g fun m => m + s.get (R.COIL_FB_FB_E n) * microJ } }
  let s := s.modCoil n fun x => { x with energised := false, lead := false, hold := false, due := none }
  let s := if delayed then (s.setDelayed n false).postOwner (s.owner (R.OWN_COIL n)) 0x710
      [arg n.val, arg (s.age / 125 - due / 125), arg g.val] else s
  if (groupCoils g).any fun m => (s.coil m).energised then s else s.setFlag (R.CLMP_STATUS_HS_ON g) false

/-- A due turn-off is performed if the clamp has room, else it is delayed, and the coil stays energised, in hold (R327). -/
def State.tryOff (s : State) (n : Fin 8) : State :=
  match (s.coil n).due with
  | some t =>
    if s.clampRoom n then s.coilOff n t
    else if (s.coil n).delayed then s
    else
      let s := s.modCoil n fun x => if x.hold then x else { x with hold := true, since := s.age }
      (s.setDelayed n true).bumpS (R.CLMP_CNT_DELAY_CNT (coilGroup n))
  | none => s

/-- Coarse ticks until the clamp has room for the turn-off of coil `n`; none: it never has. -/
def State.clampWait (s : State) (n : Fin 8) : Option Nat :=
  let g := coilGroup n
  let cap := s.get (R.CLMP_CAP_CLAMP_CAP g) * microJ
  let need := s.aux.clamp[g] + s.get (R.COIL_FB_FB_E n) * microJ - cap
  let p := s.get (R.CLMP_P_CLAMP_P g)
  if need = 0 then some 0
  else if cap < s.get (R.COIL_FB_FB_E n) * microJ ∨ p = 0 then none
  else some ((need + p - 1) / p)

/-- Enters coil `n`, due at `t`, into a list in the order of R328: by the tick at which it became due, then by number. -/
def dueInsert (x : Nat × Fin 8) : List (Nat × Fin 8) → List (Nat × Fin 8)
  | [] => [x]
  | y :: l => if x.1 / 125 < y.1 / 125 ∨ (x.1 / 125 = y.1 / 125 ∧ x.2 < y.2) then x :: y :: l else y :: dueInsert x l

/-- The due turn-offs of a group, in the order in which they are tried. -/
def State.dueCoils (s : State) (g : Fin 2) : List (Fin 8) :=
  ((groupCoils g).foldl (fun l n => match (s.coil n).due with
    | some t => dueInsert (t, n) l
    | none => l) []).map Prod.snd

/-- The due turn-offs of a group at one tick (R328). -/
def State.turnOffs (s : State) (g : Fin 2) : State := (s.dueCoils g).foldl State.tryOff s

/-- Coil `n` takes its request (R325, R328). -/
def State.coilApply (s : State) (n : Fin 8) : State :=
  let want := s.coilWant n
  let was := (s.coil n).req
  let s := s.modCoil n fun x => { x with req := want }
  if want && !was then
    if (s.coil n).energised then (s.setDelayed n false).modCoil n fun x => { x with due := none } else s.coilOn n
  else if was && !want && (s.coil n).energised then s.modCoil n fun x => { x with due := some s.age }
  else s

/-- Every coil takes its request, then the due turn-offs are tried. -/
def State.coilsApply (s : State) : State := ((forAll 8 (fun n s => s.coilApply n) s).turnOffs 0).turnOffs 1

/-! ## Active discharge (R331 to R335) -/

/-- Posts a discharge event to F0 and to the discharge owner. -/
def State.postDsch (s : State) (code : Nat) (args : List (BitVec 64)) : State :=
  let s := s.postF0 code args
  match s.owner R.OWN_AUX0_DISCHG with
  | some e => s.postEasel e code args
  | none => s

/-- 1 J in units of 2^-16 × 10 pJ. -/
def joule : Nat := 100000000000 * 65536

/-- The meter D in whole joules. -/
def State.dschJ (s : State) : Nat := s.aux.d / joule

/-- DSCH: high while the discharge is on and not cut. -/
def State.dschHigh (s : State) : Bool := s.flag R.DSCH_STATUS_ON && !s.flag R.DSCH_STATUS_CUT

/-- Takes a change of what turns the discharge on (R331, R332); `cause` is that of DSCH_START. -/
def State.dschUpdate (s : State) (cause : Nat) : State :=
  let on := s.aux.dschReq || s.flag R.DSCH_STATUS_TRIG || s.aux.dschSafe
  if on = s.flag R.DSCH_STATUS_ON then s
  else if on then
    let s := ((s.setFlag R.DSCH_STATUS_ON true).setFlag R.DSCH_STATUS_DONE false).setFlag R.DSCH_STATUS_FAIL false
    let s := { s with aux := { s.aux with w := s.get R.DSCH_PWR_DSCH_PWR * 1000 * 65536, start := s.age } }
    s.postDsch 0x720 [arg cause, 0]
  else s.setFlag R.DSCH_STATUS_ON false

/-- Would D exceed DSCH_CAP at this tick (R333)? -/
def State.dschOver (s : State) : Bool :=
  s.dschHigh && decide (s.aux.d + s.aux.w > s.get R.DSCH_CAP_DSCH_CAP * joule)

/-- The cut (R333). -/
def State.dschCut (s : State) : State :=
  ((s.setFlag R.DSCH_STATUS_CUT true).bumpS R.DSCH_CNT_CUT_CNT).postDsch 0x721 [0, arg s.dschJ]

/-- May the cut clear (R333)? -/
def State.dschCool (s : State) : Bool :=
  s.flag R.DSCH_STATUS_CUT && decide (2 * s.aux.d ≤ s.get R.DSCH_CAP_DSCH_CAP * joule)

/-- Is every choke group named in FEED active (R332)? -/
def State.fedOff (s : State) : Bool := (fins 16).all fun g => !s.bit R.DSCH_FEED_FEED g.val || s.flag (R.CG_CTRL_ACTIVE g)

/-- R334: DONE, where the filtered BELOW of DONE_CMP reads 1 while the discharge is on; it ends a triggered
discharge and that of the safe state (R331, R356). -/
def State.dschDone (s : State) : State :=
  if s.flag R.DSCH_STATUS_ON && !s.flag R.DSCH_STATUS_DONE && s.flag (R.CMP_STATUS_BELOW (s.get R.DSCH_CTRL_DONE_CMP)) then
    let s := (s.setFlag R.DSCH_STATUS_DONE true).postDsch 0x722 [0, arg ((s.age - s.aux.start) / ms1)]
    (({ s with aux := { s.aux with dschSafe := false } }).setFlag R.DSCH_STATUS_TRIG false).dschUpdate 0
  else s

/-- One coarse tick of the discharge. -/
def State.dschTick (s : State) : State :=
  let s := s.dschDone
  let s := if s.dschCool then s.setFlag R.DSCH_STATUS_CUT false else s
  let s := if s.dschOver then s.dschCut else s
  let gain := if s.dschHigh then s.aux.w else 0
  let w := if s.dschHigh && s.fedOff then s.aux.w - s.aux.w / 2 ^ s.get R.DSCH_PWR_K else s.aux.w
  { s with aux := { s.aux with w := w, d := s.aux.d + gain - s.get R.DSCH_LEAK_DSCH_LEAK * 65536 } }

/-- `n` coarse ticks of the discharge: one by one while it is on or cut. -/
def State.dschTicks (s : State) : Nat → State
  | 0 => s
  | n + 1 => (s.ago (125 * n + s.fine) State.dschTick).dschTicks n

/-- The committed discharge request. -/
def State.dschWant (s : State) : Bool :=
  match s.owner R.OWN_AUX0_DISCHG with
  | some e => (Cells.get 0 0x24395 (s.ez e).outs).getLsbD 0
  | none => false

/-- Every fan, coil and the discharge take the committed requests (R318). -/
def State.auxApply (s : State) : State :=
  let s := (forAll 8 (fun n s => s.coilTake n) (forAll 4 (fun n s => s.fanApply n) s)).coilsApply
  ({ s with aux := { s.aux with dschReq := s.dschWant } }).dschUpdate 0

/-! ## The passing of coarse ticks (R317, R318, R327, R328) -/

/-- The clamp meter of a group falls for `n` coarse ticks. -/
def State.coolClamp (s : State) (g : Fin 2) (n : Nat) : State :=
  { s with aux := { s.aux with clamp := upd s.aux.clamp g fun m => m - n * s.get (R.CLMP_P_CLAMP_P g) } }

/-- After how many coarse ticks, at least one, the clamp has room for the next due turn-off of a group. -/
def State.groupWait (s : State) (g : Fin 2) : Option Nat :=
  ((s.dueCoils g).filterMap fun n => s.clampWait n).foldl (fun (m : Option Nat) k => match m with
    | some j => some (min j (max 1 k))
    | none => some (max 1 k)) none

/-- The last `n` coarse ticks of a group: the meter falls, and at each tick the due turn-offs are tried; at most `fuel` ticks have
one that fits. -/
def State.coolGroup (s : State) (g : Fin 2) : Nat → Nat → State
  | 0, n => s.coolClamp g n
  | fuel + 1, n =>
    match s.groupWait g with
    | some k =>
      if k ≤ n then ((s.coolClamp g k).ago (s.fine + 125 * (n - k)) fun s => s.turnOffs g).coolGroup g fuel (n - k)
      else s.coolClamp g n
    | none => s.coolClamp g n

/-- `n` coarse ticks of this file, `n` at least 1: the requests committed before them act at the first. -/
def State.auxTicks (s : State) (n : Nat) : State :=
  let s := ((s.coolClamp 0 1).coolClamp 1 1).ago (s.fine + 125 * (n - 1)) State.auxApply
  let s := (s.coolGroup 0 4 (n - 1)).coolGroup 1 4 (n - 1)
  let s := forAll 4 (fun n s => s.tachCount n) s
  if s.flag R.DSCH_STATUS_ON || s.flag R.DSCH_STATUS_CUT then s.dschTicks n
  else { s with aux := { s.aux with d := s.aux.d - n * s.get R.DSCH_LEAK_DSCH_LEAK * 65536 } }

/-! ## What a pass reads (R319) -/

def State.fanWord (s : State) (e : Fin 8) (n : Fin 4) : Word :=
  if s.owner (R.OWN_FAN n) = some e then
    BitVec.ofNat 40 (s.fanPeriodUs n + 2 ^ 16 * s.fanAvg n + 2 ^ 26 * s.fanState n)
  else 0

def State.coilWord (s : State) (e : Fin 8) : Word :=
  let mine (n : Fin 8) : Bool := s.owner (R.OWN_COIL n) == some e
  let sum := (fins 8).foldl (fun w n => if mine n then
    w + (s.coil n).energised.toNat * 2 ^ n.val + (s.coil n).delayed.toNat * 2 ^ (8 + n.val) else w) 0
  let hs (g : Fin 2) : Nat := if (groupCoils g).any mine then s.get (R.CLMP_STATUS_HS_ON g) else 0
  BitVec.ofNat 40 (sum + hs 0 * 2 ^ 16 + hs 1 * 2 ^ 17)

/-- The auxiliary words of an easel at release. -/
def State.auxSysin (s : State) (e : Fin 8) : List (Nat × TWord) :=
  let fans := (fins 4).map fun n => (0x24250 + n.val, s.fanWord e n)
  let st := (s.word R.DSCH_STATUS_ON).toNat
  let bits_ := bits st 0 1 + 2 * bits st 1 1 + 4 * bits st 2 1 + 8 * bits st 3 1 + 16 * bits st 4 1 + 32 * bits st 5 1
  let dsch := if s.owner R.OWN_AUX0_DISCHG = some e then bits_ else 0
  let derate := (fins 4).any fun n => s.owner (R.OWN_FAN n) == some e && s.fanState n == fanTachless
  (fans ++ [(0x24254, s.coilWord e), (0x24255, BitVec.ofNat 40 dsch), (0x24256, BitVec.ofNat 40 derate.toNat)]).map
    fun (p : Nat × Word) => (p.1, TWord.mk p.2 false)

end Sys2Proof.Machine
end

