-- ==== Sys2Proof/Machine/Safe.lean ====
section
/-! DEFINITION. The safe state: its causes, entry and exit (R355 to R359). -/

namespace Sys2Proof.Machine

/-! Causes, by bit of SAFE_STATUS.CAUSE. -/
def safeReset : Nat := 0
def safeKillPin : Nat := 1
def safeKillCmd : Nat := 2
def safeDwd : Nat := 3
def safeClkmon : Nat := 4
def safeDebug : Nat := 5

def State.inSafe (s : State) : Bool := s.flag R.SAFE_STATUS_SAFE_STATE
def State.hold (s : State) : Bool := s.flag R.SUP_STATUS_HOLD

/-- The level of SAFE (R359). -/
def State.safePin (s : State) : Bool := !s.sup.inReset && !s.inSafe && !s.hold

/-- Posts to F0 and to every easel (R368). -/
def State.postAll (s : State) (code : Nat) (args : List (BitVec 64)) : State :=
  forAll 8 (fun e s => s.postEasel e code args) (s.postF0 code args)

/-- What holds in the safe state beyond the causes: the legs, the discharge (R356); the coils follow at the next coarse tick
(R317). -/
def State.safeHolds (s : State) : State :=
  let s := forAll 64 (fun l s => s.setCause l causeDevice) s
  if s.flag R.SAFE_CTRL_DSCH then ({ s with aux := { s.aux with dschSafe := true } }).dschUpdate 3 else s

/-- A cause is latched; the first one enters the safe state (R355, R356). -/
def State.safeEnter (s : State) (c : Nat) : State :=
  let was := s.inSafe
  let s := s.setBit R.SAFE_STATUS_CAUSE c true
  let s := if c = safeDwd then s.setFlag R.DWD_STATUS_FAULT true else s
  if was then s
  else ((s.setFlag R.SAFE_STATUS_SAFE_STATE true).safeHolds).postAll 0x803 [1, arg (s.get R.SAFE_STATUS_CAUSE)]

/-- SAFE_CLR acts: every cause but CLKMON clears, and KILL_PIN only while KILL is not asserted (R357). The event carries the
causes that clear (DEDUCED, entry 44). -/
def State.safeClear (s : State) : State :=
  let was := s.inSafe
  let causes := arg (s.get R.SAFE_STATUS_CAUSE)
  let keep := s.get R.SAFE_STATUS_CAUSE &&& (16 + if s.flag R.SAFE_STATUS_KILL_IN then 2 else 0)
  let s := (s.set R.SAFE_STATUS_CAUSE keep).setFlag R.DWD_STATUS_FAULT false
  if was && keep == 0 then
    let s := s.setFlag R.SAFE_STATUS_SAFE_STATE false
    let s := forAll 64 (fun l s => s.clearCause l causeDevice) s
    let s := ({ s with aux := { s.aux with dschSafe := false } }).dschUpdate 3
    s.postAll 0x803 [0, causes]
  else s

end Sys2Proof.Machine
end

