-- ==== Sys2Proof/Machine/Timebase.lean ====
section
/-! DEFINITION. The timebase: tempo, fine calibration, TREF and BOSC, and blends (Time Without a Clock). -/

namespace Sys2Proof.Machine

/-! States (Reference switching). -/
def tbOnTref : Nat := 0
def tbToBosc : Nat := 1
def tbOnBosc : Nat := 2
def tbQualify : Nat := 3
def tbToTref : Nat := 4

def State.tbState (s : State) : Nat := s.get R.TB_STATUS_STATE
def State.modTb (s : State) (f : Timebase → Timebase) : State := { s with tb := f s.tb }

/-- Is TREF allowed by TREF_EN and FORCE_BOSC? -/
def State.trefAllowed (s : State) : Bool := s.flag R.TB_CTRL_TREF_EN && !s.flag R.TB_CTRL_FORCE_BOSC

/-! ## Blends (R58) -/

/-- A blend of 1,000 steps of 100 ns starts at an instant towards a captured frequency word. -/
def State.tbBlend (s : State) (at_ st : Nat) (target : Int) : State :=
  (s.set R.TB_STATUS_STATE st).modTb fun t =>
    { t with blendFrom := t.word, blendTo := target, blendStep := 0, blendAt := at_, trimAt := none }

/-- The word after `k` of the 1,000 equal steps. -/
def blendWord (a b : Int) (k : Nat) : Int := a + roundDiv ((b - a) * k) 1000

/-- Does a blend run? -/
def State.blending (s : State) : Bool := s.tbState == tbToBosc || s.tbState == tbToTref

/-- The instant of step `k` of the blend in progress: 100 ns are 1,250 fine ticks. -/
def State.blendInstant (s : State) (k : Nat) : Nat := s.tb.blendAt + 1250 * k

/-- The level tests of TREF_EN and FORCE_BOSC at the coarse tick `at_` (R60). DESIGN CHOICE: QUAL_COUNT returns to 0 with the
return to ON_BOSC; the chapter names no value of it outside QUALIFY (log entry 87). -/
def State.tbLevels (s : State) (at_ : Nat) : State :=
  if s.trefAllowed then s
  else if s.tbState = tbOnTref then s.tbBlend at_ tbToBosc s.tb.bosc
  else if s.tbState = tbQualify then (s.set R.TB_STATUS_STATE tbOnBosc).set R.TB_STATUS_QUAL_COUNT 0
  else s

/-! ## TREF (R57, R59) -/

/-- Does a measurement declare TREF lost (R57): 200 ns (2,500 fine ticks) without an edge, or a count of BOSC coarse ticks more
than 2 % off 4,096? -/
def trefLost (v : TrefView) : Bool :=
  match v with
  | .gap ticks => decide (2500 ≤ ticks)
  | .window n => decide (4096 * 2 < ((n : Int) - 4096).natAbs * 100)

/-- Is a period of TREF, in ps, within 2 % of 40 ns (R59)? -/
def cycleOk (periodPs : Nat) : Bool := decide (39200 ≤ periodPs) && decide (periodPs ≤ 40800)

/-- Do 1,024 cycles that took `span` BOSC coarse ticks keep within 1.5 % of 4,096 (R59)? -/
def spanOk (span : Nat) : Bool := decide (((span : Int) - 4096).natAbs * 1000 ≤ 4096 * 15)

/-! ## Fine calibration (R44 to R47) -/

/-- The first candidate of easel `e` at or after now, where its first downbeat waits for FINE_OK (R51). -/
def State.nextCandidate (s : State) (e : Fin 8) : State :=
  let p := s.get (R.DB_PERIOD_PERIOD e)
  match (s.ez e).gen with
  | some t =>
    if (s.ez e).lastDb = none ∧ timeLe t s.time = true then
      s.modEz e fun z => { z with gen := some (t + BitVec.ofNat 48 ((ticksFrom t s.time + p - 1) / p * p)) }
    else s
  | none => s

/-- The calibration of the standby line is valid: its table is taken and the lines swap. -/
def State.calGood (s : State) (n : BitVec 9) : State :=
  let s := if s.flag R.TB_STATUS_FINE_OK then s else forAll 8 (fun e s => s.nextCandidate e) s
  let s := s.modTb fun t => if t.line then { t with tapsA := n, line := false } else { t with tapsB := n, line := true }
  let s := (s.set R.FINE_CAL_TAPS n.toNat).set R.FINE_CAL_TAPS_LAST n.toNat
  (s.setFlag R.TB_STATUS_FINE_OK true).setFlag R.TB_STATUS_FINE_STALE false

/-- The calibration is invalid (R46). -/
def State.calBad (s : State) (n : BitVec 9) : State :=
  let s := ((s.set R.FINE_CAL_TAPS_LAST n.toNat).setFlag R.TB_STATUS_FINE_STALE true).bumpS R.TB_COUNTS_FINE_CAL_FAIL_CNT
  (s.postF0 0x21 [0, arg n.toNat]).pulse 0xE1

/-! ## Tempo (R38 to R42, R74 to R78) -/

/-- What a ring gives for the trips of a window of 2,560 ns, in units of 2^-12 ns: 2,560 ns × scale ÷ count (R38). The scale is
the factory constant, in units of 2^-24; the chapter states neither how the quotient is rounded nor a result outside U4.12, and
both are open. -/
def ringTempo (trips : Nat) : BitVec 16 :=
  let num := 2560 * 2 ^ 12 * Config.ringScale
  let den := 2 ^ 24 * trips
  let q := num / den + if num % den = 0 then 0 else (Config.tempoRoundsUp num den).toNat
  if q < 0xFFFF then BitVec.ofNat 16 q else Config.tempoBeyond q

/-- The result of each ring in a window; none for a ring that completed no trip (R38, R41). -/
def ringResults (trips : Vector Nat 16) : Vector (Option (BitVec 16)) 16 :=
  trips.map fun n => if n = 0 then none else some (ringTempo n)

/-- The largest result and the ring that gave it. DESIGN CHOICE: of several rings with the same largest result the lowest is
recorded (log entry 88). -/
def largestRing (rings : Vector (Option (BitVec 16)) 16) : BitVec 16 × Nat :=
  (fins 16).foldl (fun m i => match rings[i] with
    | some v => if m.1 < v then (v, i.val) else m
    | none => m) (0, 0)

/-- The first stopped ring (R41). -/
def stoppedRing (rings : Vector (Option (BitVec 16)) 16) : Option (Fin 16) := (fins 16).find? fun i => rings[i] == none

/-- What a publication means for easel `e`: OUT_OF_RATED (of a tempo: 0xFFFF is none, R40) and LIVE_UNFIT (R75, R77), and a new
prediction (R78). -/
def State.tempoFor (s : State) (tempo : Nat) (e : Fin 8) : State :=
  let s := if tempo != 0xFFFF && decide (tempo > worstTempo) then
      (s.raise (R.SCHED_STATUS_OUT_OF_RATED e)).postEasel e 0x14 [0, arg tempo] else s
  let s := if s.run e && s.flag (R.SCHED_ADM_MODE e) then
      let r := s.admission e (s.halfOf e)
      let unfit := !(r.1 && s.hasImage e)
      let was := s.flag (R.SCHED_STATUS_LIVE_UNFIT e)
      let s := s.setFlag (R.SCHED_STATUS_LIVE_UNFIT e) unfit
      if unfit && !was then s.postEasel e 0x13 [0, arg r.2] else s
    else s
  s.predict e

/-- A publication of TEMPO. -/
def State.publish (s : State) (tempo : BitVec 16) (ring : Nat) : State :=
  let s := (s.set R.TEMPO_TEMPO tempo.toNat).set R.TEMPO_RING ring
  let s := if tempo ≠ 0xFFFF ∧ s.get R.TEMPO_PEAK_PEAK < tempo.toNat then s.set R.TEMPO_PEAK_PEAK tempo.toNat else s
  let s := s.modTb fun t => { t with tempos := (tempo :: t.tempos).take 64 }
  forAll 8 (fun e s => s.tempoFor tempo.toNat e) s

end Sys2Proof.Machine
end

