-- ==== Sys2Proof/Machine/Clock.lean ====
section
/-! DEFINITION. The passing of time: what happens at coarse ticks whatever is commanded, and the instant of a command that
the specification places (log entry 1). -/

namespace Sys2Proof.Machine

/-! ## Watchdog counts (R350, R351) -/

/-- Fields of watchdog `w`: 0 to 7 of the easels, 8 of the device. -/
def wdEn (w : Fin 9) : Fld := if w.val < 8 then R.EWD_CTRL_EN w else R.DWD_CTRL_EN
def wdClk (w : Fin 9) : Fld := if w.val < 8 then R.EWD_CTRL_CLK w else R.DWD_CTRL_CLK
def wdOpen (w : Fin 9) : Fld := if w.val < 8 then R.EWD_OPEN_OPEN w else R.DWD_OPEN_OPEN
def wdClose (w : Fin 9) : Fld := if w.val < 8 then R.EWD_CLOSE_CLOSE w else R.DWD_CLOSE_CLOSE
def wdT (w : Fin 9) : Fld := if w.val < 8 then R.EWD_STATUS_T w else R.DWD_STATUS_T
def wdLast (w : Fin 9) : Fld := if w.val < 8 then R.EWD_CTRL_LAST w else R.DWD_STATUS_LAST
def wdCnt (w : Fin 9) : Fld := if w.val < 8 then R.EWD_STATUS_FAULT_CNT w else R.DWD_CNT_DWD_FAULT_CNT

/-- Does the count of watchdog `w` wait for step 6 of an easel reset (R353)? -/
def State.wdHalted (s : State) (w : Fin 9) : Bool := s.sup.halted.getLsbD w.val

/-- The tick number of the clock of watchdog `w` at an age. -/
def State.wdClockAt (s : State) (w : Fin 9) (age : Nat) : Nat :=
  if s.flag (wdClk w) then age / 12500 else Config.wdTicks (age / 125)

/-- The count of watchdog `w` after time has passed since `age`; it waits at CLOSE for its fault. -/
def State.wdAdvance (s : State) (age : Nat) (w : Fin 9) : State :=
  if s.flag (wdEn w) && !s.wdHalted w then
    let n := s.wdClockAt w s.age - s.wdClockAt w age
    s.set (wdT w) (min (s.get (wdClose w)) (s.get (wdT w) + n))
  else s

/-! ## Locks (R387) -/

/-- The lock bits written in the tick that ends take effect. -/
def State.locksAct (s : State) : State :=
  if s.lockNext = 0 then s
  else
    let s := s.set R.LOCK_STATUS_LOCKED (s.get R.LOCK_STATUS_LOCKED ||| s.lockNext.toNat % 1024)
    let s := if s.lockNext.getLsbD 15 then (s.setFlag R.LOCK_STATUS_SAFETY true).setFlag R.SP_LOCK_LOCKED true else s
    { s with lockNext := 0 }

/-- SAFE_CLR acts at the next coarse tick (R357). -/
def State.safeClrAct (s : State) : State :=
  if s.sup.safeClr then ({ s with sup := { s.sup with safeClr := false } }).safeClear else s

/-- Does a wrong setting act on its own now, in the `k`-th of its ways (R407)? -/
def State.acts (s : State) (t k : Nat) : Bool := Config.wildActs (s.freeCount + k) t

/-- What a wrong protection setting may do on its own (R407): a choke group becomes active or ends its activity, a route chokes
the groups it names (what else it may do falls on the easel it names), a comparator or a FLT ball activates its groups. -/
def State.wildSetting (s : State) (t : Nat) : State :=
  if within t 0x8C00 0x8CFF then
    let g : Fin 16 := Fin.ofNat 16 ((t - 0x8C00) / 0x10)
    if s.acts t 0 then s.draw.groupOn g 0x100 2
    else if s.acts t 1 && s.groupActive g then s.draw.groupOff g
    else s.draw
  else if within t 0x8D00 0x8EFF then
    let r : Fin 128 := Fin.ofNat 128 ((t - 0x8D00) / 4)
    let named := !within (s.get (R.ROUTE_ACTION r)) 2 5
    if s.acts t 0 && named then s.draw.activateMask (s.get (R.ROUTE_ARG r)) (.route r) else s.draw
  else if within t 0x8800 0x8BFF then
    let c : Fin 64 := Fin.ofNat 64 ((t - 0x8800) / 0x10)
    let up := s.acts t 0
    let dn := s.acts t 1
    let s := if up then s.activateMask (s.get (R.CMP_GRP_GRP_UP c)) (.above c) else s
    (if dn then s.activateMask (s.get (R.CMP_GRP_GRP_DN c)) (.below c) else s).draw
  else
    let l : Fin 64 := Fin.ofNat 64 ((t - 0x8000) / 0x20)
    if s.acts t 0 then s.draw.activateMask (s.get (R.LEG_FLT_FLT_GRP l)) (.flt l) else s.draw

/-- What an unpredictable easel puts on EPLS; fans, coils and discharge follow its requests. -/
def State.rescrambleOutputs (s : State) : State :=
  match s.ownerMeter with
  | some e => if (s.ez e).unpred then ({ s with mtr := { s.mtr with epls := Config.wildActs s.freeCount 0x9920 } }).draw else s
  | none => s

/-- What is unpredictable takes new values (R2, R4), the head of the F0 ring among them (R137), and wrong protection settings act
(R407). -/
def State.rescramble (s : State) : State :=
  let es := (fins 8).filter fun e => (s.ez e).unpred
  let s := es.foldl (fun s e => s.scramble e) s
  let s := s.unpredRegs.foldl (fun s t =>
    if s.protective t then s.wildSetting t
    else if t = R.F0_RING_STATUS_EVT_TAIL.addr then
      { s with f0 := { s.f0 with head := (Config.freeReg s.freeCount).setWidth 16 } }.draw
    else s.scrambleReg t) s
  if es.isEmpty then s else s.rescrambleOutputs

/-! ## Time passes -/

/-- What `k` coarse ticks bring, `k` at least 1; `age` is the age before. -/
def State.coarse (s : State) (age k : Nat) : State :=
  let s := { s.locksAct with tick := {} }.wheelTicks k
  let s := forAll 9 (fun w s => s.wdAdvance age w) s
  (((s.tbLevels (s.age - s.fine - 125 * (k - 1))).auxTicks k).safeClrAct).rescramble

/-- `n` fine ticks pass; a new 10.24 µs window of the F0 ring begins at TIME48 multiples of 128,000 (R146). During device
reset the timebase stands (R50), and only the age counts on. -/
def State.elapse (s : State) (n : Nat) : State :=
  if s.sup.inReset then { s with age := s.age + n } else
  let age := s.age
  let old := s.time.toNat
  let k := (s.fine + n) / 125
  let s := { s with time := s.time + BitVec.ofNat 48 n, age := age + n, fine := (s.fine + n) % 125 }
  let s := if k = 0 then s else s.coarse age k
  let s := forAll 16 (fun p s => s.linkElapse n old k p) s
  let s := forAll 8 (fun e s => s.abortStopped e) s
  if (old + n) / 128000 = old / 128000 then s else s.irqWindow

/-- Goes to an instant of TIME48 that lies ahead. -/
def State.reach (s : State) (t : Time) : State := if timeLe t s.time then s else s.elapse (ticksFrom s.time t)

/-- Goes to an age that lies ahead. -/
def State.reachAge (s : State) (t : Nat) : State := if s.age < t then s.elapse (t - s.age) else s

/-- Goes to the next TIME48 multiple of `m`, the present instant included. -/
def State.reachMultiple (s : State) (m : Nat) : State := if m = 0 then s else s.elapse ((m - s.time.toNat % m) % m)

/-- Goes to the next coarse tick, unless one is now. -/
def State.reachCoarse (s : State) : State := s.elapse ((125 - s.fine) % 125)

end Sys2Proof.Machine
end

