-- ==== Sys2Proof/Machine/AuxCommands.lean ====
section
/-! DEFINITION. Events of fans, coils and the active discharge (Auxiliary Drives and Wiring Energy Limits). -/

namespace Sys2Proof.Machine

/-- Goes to the first coarse tick after a commit of one of these easels: strictly after the present instant where its downbeat has
just fired. -/
def State.afterCommit (s : State) (es : List (Fin 8)) : State :=
  if es.any fun e => (s.ez e).lastDb == some s.age then s.elapse (125 - s.fine) else s.reachCoarse

/-- The easels that own a fan, a coil or the discharge. -/
def State.auxOwners (s : State) : List (Fin 8) :=
  (fins 8).filter fun e => s.owner R.OWN_AUX0_DISCHG == some e || ((fins 4).any fun n => s.owner (R.OWN_FAN n) == some e)
    || (fins 8).any fun n => s.owner (R.OWN_COIL n) == some e

/-- R318: the requests of the last commits take effect. -/
def execAuxRequestApply (s : State) : Host.Outcome State Fault Refusal := .next (s.afterCommit s.auxOwners).auxApply

/-! ## Fans (R320 to R323) -/

/-- R321: TACHn takes a level, which the next coarse tick samples first. A falling level on which 1,000 samples agree is a valid
edge, counted at the last of them as time passes. -/
def execTachEdge (n : Fin 4) (level : Bool) (s : State) : Host.Outcome State Fault Refusal :=
  if (s.fan n).pin = level then .next s
  else .next (s.modFan n fun x => { x with pin := level, pinAt := s.coarseAt s.age })

/-- R322, R323: a sample of FCSn, 10 µs after the one before, I_AVG over the last 64, and the current test of TACHLESS. -/
def execFcsSample (n : Fin 4) (code : BitVec 10) (s : State) : Host.Outcome State Fault Refusal :=
  let s := match (s.fan n).sampledAt with
    | some t => s.reachAge (t + 125000 * max 1 ((s.age - t + 124999) / 125000))
    | none => s.reachCoarse
  let s := s.modFan n fun x => { x with samples := (code :: x.samples).take 64, sampledAt := some s.age }
  let s := s.set (R.FAN_STATUS_I_AVG n) (((s.fan n).samples.foldl (fun m x => m + x.toNat) 0) / 64)
  if s.fanState n = fanTachless ∧ s.fanInBand n = false then .next (s.fanStall n) else .next s

/-- No valid edge has come in time: TACHLESS where the current is in band, else a stall (R323). -/
def State.fanSilent (s : State) (n : Fin 4) : State := if s.fanInBand n then s.fanTachGone n else s.fanStall n

/-- R323: SPIN_T ends. A request and an edge of the same coarse tick go first (R324). -/
def execSpinTEnd (n : Fin 4) (s : State) : Host.Outcome State Fault Refusal :=
  if s.fanState n = fanSpin then
    let s := s.reachAge ((s.fan n).entry + s.spinT n)
    .next (if s.fanState n = fanSpin then s.fanSilent n else s)
  else .next s

/-- R323: no valid edge for TLOSS_T in RUN, the tick of its end included (R324). -/
def execTlossTEnd (n : Fin 4) (s : State) : Host.Outcome State Fault Refusal :=
  if s.fanState n = fanRun then
    let from_ := (s.fan n).lossFrom
    let s := s.reachAge (from_ + s.get (R.FAN_TIME_TLOSS_T n) * ms10)
    .next (if s.fanState n = fanRun ∧ (s.fan n).lossFrom = from_ then s.fanSilent n else s)
  else .next s

/-- R323: PAUSE_T ends. -/
def execPauseTEnd (n : Fin 4) (s : State) : Host.Outcome State Fault Refusal :=
  if s.fanState n = fanPause then
    let s := s.reachAge ((s.fan n).entry + s.get (R.FAN_TIME_PAUSE_T n) * ms10)
    .next (if s.fanState n = fanPause then s.fanEnter n fanSpin else s)
  else .next s

/-- R320: a period of FPWMn starts with the drive of the state table. -/
def execFpwmPeriodStart (n : Fin 4) (s : State) : Host.Outcome State Fault Refusal :=
  let per := s.get (R.FAN_CFG_FPER n)
  let s := s.reachMultiple (125 * per)
  let d := s.fanDrive n
  .next (s.modFan n fun x => { x with force := d, high := (roundDiv (d * per) (2 ^ 32)).toNat })

/-! ## Coils (R325 to R329) -/

/-- R325: PULL_T ends, and the coil goes to its hold duty. -/
def execPullTEnd (n : Fin 8) (s : State) : Host.Outcome State Fault Refusal :=
  let x := s.coil n
  if x.energised && !x.lead && !x.hold then
    let s := s.reachAge (x.since + s.get (R.COIL_CFG_PULL_T n) * ms1)
    .next (s.modCoil n fun y => if y.energised && !y.lead && !y.hold && y.since == x.since then { y with hold := true, since := s.age }
      else y)
  else .next s

/-- R326: HS_LEAD after the high side, CLSn turns on. -/
def execHsLeadEnd (n : Fin 8) (s : State) : Host.Outcome State Fault Refusal :=
  let x := s.coil n
  if x.energised && x.lead then
    let s := s.reachAge (x.since + s.get R.COIL_PWM_HS_LEAD * 125)
    .next (s.modCoil n fun y => if y.energised && y.lead && y.since == x.since then { y with lead := false, since := s.age } else y)
  else .next s

/-- Goes to the coarse tick at which the due turn-off of coil `n` is performed, past those of its group that fit earlier. -/
def State.awaitOff (s : State) (n : Fin 8) : Nat → State
  | 0 => s
  | k + 1 =>
    if (s.coil n).due.isSome then
      match s.clampWait n with
      | some m => ((s.elapse (125 * m)).turnOffs (coilGroup n)).awaitOff n k
      | none => s
    else s

/-- R327, R328: a due turn-off is performed at the first tick at which the clamp has room; at each tick the due turn-offs of the
group are tried in their order. One for which there can be no room stays due. -/
def execCoilTurnOff (n : Fin 8) (s : State) : Host.Outcome State Fault Refusal :=
  if (s.coil n).due.isSome then .next (s.reachCoarse.awaitOff n 4) else .next s

/-- R329: FOFF_SRC reads 1 at a coarse tick. -/
def execCoilForceOff (n : Fin 8) (s : State) : Host.Outcome State Fault Refusal :=
  if s.flag (R.COIL_CFG_FOFF_EN n) && s.source (s.get (R.COIL_CFG_FOFF_SRC n)) then
    .next ((s.reachCoarse.coilApply n).turnOffs (coilGroup n))
  else .next s

/-! ## Discharge (R331 to R335) -/

/-- The router source of trigger `k`, and its enable. -/
def State.tsrc (s : State) (k : Fin 2) : Nat := if k = 0 then s.get R.DSCH_CTRL_TSRC0 else s.get R.DSCH_CTRL_TSRC1
def State.ten (s : State) (k : Fin 2) : Bool := if k = 0 then s.flag R.DSCH_CTRL_TEN0 else s.flag R.DSCH_CTRL_TEN1

/-- HV_DISC is posted to F0 and to the easels of NOTIFY, each with its DB_COUNT and LDG_LAST (R335). -/
def State.postHvDisc (s : State) (src : Nat) : State :=
  forAll 8 (fun e s => if s.bit R.DSCH_FEED_NOTIFY e.val then
    s.postEasel e 0x724 [arg src, arg (s.ez e).dbCount.toNat, arg (s.get (R.LDG_LAST_HI_CMD_IDX e)),
      arg (s.get (R.LDG_LAST_LO_DB_LO e))] else s) (s.postF0 0x724 [arg src])

/-- R331, R335: the tick after a rising edge of TSRCk. -/
def execDschTrigger (k : Fin 2) (s : State) : Host.Outcome State Fault Refusal :=
  match s.aux.trig[k] with
  | some t =>
    let s := s.reachAge (t + 125)
    let s := { s with aux := { s.aux with trig := upd s.aux.trig k fun _ => none } }
    if s.flag R.DSCH_STATUS_TRIG then .next s
    else
      let s := (s.setFlag R.DSCH_STATUS_TRIG true).setFlag R.DSCH_STATUS_HV_DISC true
      .next ((s.postHvDisc (s.tsrc k)).dschUpdate (1 + k.val))
  | none => .next s

/-- R333: the next tick would bring D above DSCH_CAP. -/
def execDschCut (s : State) : Host.Outcome State Fault Refusal :=
  if s.dschOver then .next (s.elapse (125 - s.fine)) else .next s

/-- R333: D has fallen to half of DSCH_CAP. -/
def execDschCutClear (s : State) : Host.Outcome State Fault Refusal :=
  if s.dschCool then .next (s.elapse (125 - s.fine)) else .next s

/-- R334: DSCH_T has passed without DONE. -/
def execDschFail (s : State) : Host.Outcome State Fault Refusal :=
  if s.flag R.DSCH_STATUS_ON && !s.flag R.DSCH_STATUS_DONE && !s.flag R.DSCH_STATUS_FAIL then
    let start := s.aux.start
    let s := s.reachAge (start + s.get R.DSCH_LEAK_DSCH_T * ms1)
    .next (if s.aux.start = start ∧ s.flag R.DSCH_STATUS_DONE = false then
      ((s.setFlag R.DSCH_STATUS_FAIL true).bumpS R.DSCH_CNT_FAIL_CNT).postDsch 0x723 [0, arg s.dschJ] else s)
  else .next s

/-- R331: a write of DSCH_CLR. -/
def execDschClr (a : Agent) (s : State) : Host.Outcome State Fault Refusal :=
  if s.reaches a then
    .next (((s.setFlag R.DSCH_STATUS_TRIG false).setFlag R.DSCH_STATUS_HV_DISC false).dschUpdate 0)
  else .next s

end Sys2Proof.Machine
end

