-- ==== Sys2Proof/Machine/Trig.lean ====
section
/-! DEFINITION. Sine and cosine of an angle, to the bound of R90. -/

namespace Sys2Proof.Machine

/-- A quarter turn in radians, times 2^80. -/
def quarterTurn : Nat := 1898976236818169290393996

/-- The rest of an alternating series: `n` more terms after the term `t` whose index is `k`, with `x2` the square of the
argument; everything is scaled by 2^80. -/
def series (x2 : Nat) : Nat → Nat → Int → Int
  | 0, _, _ => 0
  | n + 1, k, t => t + series x2 n (k + 2) (-(t * x2 / 2 ^ 80 / (k * (k + 1) : Nat)))

/-- Sine and cosine of `r` / 2^30 of a quarter turn, times 2^80. -/
def sinSmall (r : Nat) : Int :=
  let x := quarterTurn * r / 2 ^ 30
  series (x * x / 2 ^ 80) 16 2 x

def cosSmall (r : Nat) : Int :=
  let x := quarterTurn * r / 2 ^ 30
  series (x * x / 2 ^ 80) 16 1 (2 ^ 80)

/-- The sine of an angle, times 2^80. -/
def sin80 (a : Nat) : Int :=
  let r := a % 2 ^ 30
  match a / 2 ^ 30 % 4 with
  | 0 => sinSmall r
  | 1 => cosSmall r
  | 2 => -sinSmall r
  | _ => -cosSmall r

/-- The integers within 2^-30 of a value scaled by 2^80, as S40.32; the value's own error is far below the slack. -/
def trigLow (x : Int) : Int := -((4 * 2 ^ 48 + 2 ^ 10 - x) / 2 ^ 48)
def trigHigh (x : Int) : Int := (x + 4 * 2 ^ 48 + 2 ^ 10) / 2 ^ 48

/-- The result of SIN or COS: within 2^-30 of the exact value, the same for the same angle (R90); where in that range it
lies is open. -/
def trig (x error : Int) : Word := BitVec.ofInt 40 (clampInt (x / 2 ^ 48 + error) (trigLow x) (trigHigh x))

def sinWord (a : BitVec 32) : Word := trig (sin80 a.toNat) (Config.sinError a)
def cosWord (a : BitVec 32) : Word := trig (sin80 (a.toNat + 2 ^ 30)) (Config.cosError a)

end Sys2Proof.Machine
end

