-- ==== Sys2Proof/Machine/Metering.lean ====
section
/-! DEFINITION. The metering engine: inputs, frames, gain ranges and their estimators, blocks, accumulators, pulses, and the
backup front end (The Metering Engine). -/

namespace Sys2Proof.Machine

def State.modMtr (s : State) (f : Metering → Metering) : State := { s with mtr := f s.mtr }
def State.mtrOn (s : State) : Bool := s.flag R.MTR_CTRL_EN

/-- Posts to F0 and to the meter easel (R316). -/
def State.postMeter (s : State) (code : Nat) (args : List (BitVec 64)) : State :=
  let s := s.postF0 code args
  match s.ownerMeter with
  | some e => s.postEasel e code args
  | none => s

/-- Frames in a block. -/
def State.nf (s : State) : Nat :=
  let x := s.get R.MTR_CTRL_NF
  if x = 0 then 64 else if x = 1 then 128 else 256

/-! ## Inputs (R299) -/

/-- A 32-bit timestamp on the scale of ages, nearest to now. -/
def State.ageOf (s : State) (ts : Stamp) : Int := s.age + (ts - stamp s.time).toInt

/-- Input `k` takes a copy. -/
def State.mtrInput (s : State) (k : Fin 10) (val : Word) (flags : BitVec 8) (ts : Stamp) : State :=
  let ofs := (BitVec.ofNat 32 (s.get (R.MIN_OFS_OFS k))).toInt
  let phc := (BitVec.ofNat 24 (s.get (R.MIN_PHC_PHC k))).toInt
  let x : MtrSample := { y := roundDiv ((val.toInt - ofs) * s.get (R.MIN_GAIN_GAIN k)) (2 ^ 24), t := s.ageOf ts + phc,
                         invalid := flags.getLsbD 0, clip := flags.getLsbD 1 }
  s.modMtr fun m => { m with hist := upd m.hist k fun l => (x :: l).take 8 }

/-- An MTR copy lands: every present input of its TAG takes it. -/
def State.mtrCopy (s : State) (tag : BitVec 16) (val : Word) (flags : BitVec 8) (ts : Stamp) : State :=
  forAll 10 (fun k s => if s.flag (R.MIN_TAG_EN k) && s.get (R.MIN_TAG_TAG k) == tag.toNat then s.mtrInput k val flags ts else s) s

/-! ## Frame placement (R300) -/

/-- Does the wheel place frames? -/
def State.mtrSync (s : State) : Bool := s.flag R.MTR_CTRL_SYNC && decide (2 ≤ s.whl ∧ s.whl ≤ 6) && decide (s.freq ≠ 0)

/-- The distance from an angle to the next multiple of a step that lies at least half a step ahead. -/
def targetAhead (a step : Nat) : Nat := step / 2 + (step - (a + step / 2) % step) % step

/-- Sets MODE and reports a change (R316). -/
def State.mtrMode (s : State) (m : Nat) : State :=
  if s.get R.MTR_STATUS_MODE = m then s
  else (s.set R.MTR_STATUS_MODE m).postMeter 0x600 [arg m, arg s.whl]

/-- The placement of the frame that follows the present instant: its distance, and whether and to which target it is
synchronous. -/
def State.mtrPlace (s : State) : Nat × Bool × Nat :=
  if s.mtrSync then
    let d := targetAhead s.angle (2 ^ 32 / s.nf)
    ((d * 32000 + s.freq - 1) / s.freq, true, (s.angle + d) % 2 ^ 32)
  else (s.get R.M_FREE_FREE_T, false, 0)

/-- The tap in progress, if the engine follows it. -/
def State.liveTap (s : State) : Option MtrTap := s.mtr.taps.find? fun x => !x.ended

/-- Which span of the tap in progress holds the present instant (R304). -/
def State.tapSpan (s : State) : Option (Nat × Fin 4) :=
  match s.grid.tap, s.liveTap with
  | some x, some y => if x.avgFrom ≤ s.age ∧ s.age ≤ x.avgFrom + x.avgLen then
      some (y.no, ⟨x.phase % 4, Nat.mod_lt _ (by decide)⟩) else none
  | _, _ => none

/-- The frame instant: the frame waits for its close, and the next one is placed. -/
def State.mtrInstant (s : State) (sync : Bool) (target : Nat) : State :=
  let m := s.mtr
  let n := s.mtrPlace
  let free := if sync then 0 else m.freeN + 1
  let last := n.2.1 != sync || (sync && n.2.2 == 0) || (!sync && free == s.nf)
  let f : MtrFrame := { at_ := s.age, delta := if m.first then 0 else s.age - m.prevAt, sync := sync, target := target,
                        angle := s.angle, fresh := m.fresh, last := last, span := s.tapSpan }
  let s := s.modMtr fun m =>
    { m with waiting := m.waiting ++ [f], next := some (s.age + n.1, n.2.1, n.2.2), first := false, fresh := n.2.1 != sync,
             prevAt := s.age, freeN := if last then 0 else free }
  s.mtrMode (if n.2.1 then 2 else 1)

/-- R300: a frame instant. -/
def execFrameInstant (s : State) : Host.Outcome State Fault Refusal :=
  match s.mtr.next with
  | some (t, sync, target) => .next ((s.reachAge t).mtrInstant sync target)
  | none => .next s

/-! ## Frame values (R301, R302) -/

/-- Of samples oldest first, the earliest at or after `t` with the one before it. -/
def earliestAt (t : Int) : Option MtrSample → List MtrSample → Option (Option MtrSample × MtrSample)
  | _, [] => none
  | p, x :: l => if x.t ≥ t then some (p, x) else earliestAt t (some x) l

/-- *prev* and *cur* of an input, and whether they extrapolate. -/
def framePair (hist : List MtrSample) (t : Int) : Option (MtrSample × MtrSample) × Bool :=
  match earliestAt t none hist.reverse with
  | some (some p, c) => (some (p, c), false)
  | some (none, _) => (none, false)
  | none => match hist with
    | c :: p :: _ => (some (p, c), true)
    | _ => (none, false)

/-- The frame value of an input, with CLIP; none: the input misses. -/
def State.frameValue (s : State) (k : Fin 10) (f : MtrFrame) : Option (Int × Bool) :=
  match (framePair s.mtr.hist[k] f.at_).1 with
  | some (p, c) =>
    let span : Int := s.get R.M_SPAN_SPAN
    let d := c.t - p.t
    if (((f.at_ : Int) - c.t).natAbs : Int) > span ∨ d ≤ 0 ∨ span < d ∨ p.invalid = true ∨ c.invalid = true then none
    else some (c.y + roundDiv ((c.y - p.y) * (f.at_ - c.t)) d.toNat, p.clip || c.clip)
  | none => none

def State.inputOn (s : State) (k : Fin 10) : Bool := s.flag (R.MIN_TAG_EN k)

/-- Counts the inputs of a frame that extrapolate. -/
def State.countExtrap (s : State) (f : MtrFrame) : State :=
  forAll 10 (fun k s => if s.inputOn k && (framePair s.mtr.hist[k] f.at_).2 then s.bumpS R.MTR_CNT2_EXTRAP_CNT else s) s

/-- The first present input among 0 to 6 that misses the frame (R302). -/
def State.missing (s : State) (f : MtrFrame) : Option (Fin 10) :=
  (fins 10).find? fun k => decide (k.val < 7) && s.inputOn k && (s.frameValue k f).isNone

/-- The value of input `k`; 0 for an absent one (DEDUCED, log entry 33). -/
def State.mtrX (s : State) (k : Fin 10) (f : MtrFrame) : Int :=
  match s.frameValue k f with
  | some x => if s.inputOn k then x.1 else 0
  | none => 0

/-! ## Gain ranges (R303) -/

/-- The high-range and the low-range input of phase `m`. -/
def highIn (m : Fin 3) : Fin 10 := ⟨3 + m.val, by omega⟩
def lowIn (m : Fin 3) : Fin 10 := ⟨7 + m.val, by omega⟩

def State.inLow (s : State) (m : Fin 3) : Bool := s.bit R.MTR_STATUS_RANGE_L m.val

/-- A change of range. -/
def State.setRange (s : State) (m : Fin 3) (low : Bool) : State :=
  if s.inLow m = low then s
  else ((s.setBit R.MTR_STATUS_RANGE_L m.val low).bumpS R.MTR_CNT2_GSW_CNT).postMeter 0x601 [arg m.val, arg low.toNat]

/-- The low-range value, if the low input is present and does not miss. -/
def State.lowValue (s : State) (m : Fin 3) (f : MtrFrame) : Option (Int × Bool) :=
  if s.inputOn (lowIn m) then s.frameValue (lowIn m) f else none

/-- The current of phase `m` in a valid frame, and the change of its range (R303). -/
def State.phaseCurrent (s : State) (m : Fin 3) (f : MtrFrame) : Int × State :=
  let xh := s.mtrX (highIn m) f
  let low := s.lowValue m f
  let small := decide (xh.natAbs ≤ s.get R.MSW_DN_SW_DN * 256) && low.isSome
  let n := if small then s.mtr.hold[m] + 1 else 0
  let s' := s.modMtr fun t => { t with hold := upd t.hold m fun _ => min 65535 n }
  if s.inLow m then
    match low with
    | some (xl, clip) =>
      if clip || decide (xl.natAbs > s.get R.MSW_UP_SW_UP * 256) then (xh, s'.setRange m false)
      else (roundDiv (xl * s.get (R.LG_G m)) (2 ^ 30), s')
    | none => (xh, s'.setRange m false)
  else (xh, if n ≥ s.get R.MSW_HOLD_SW_HOLD ∧ 0 < n then s'.setRange m true else s')

/-! ## Low-range gain estimators (R304, R305) -/

/-- Estimator states. -/
def estFresh : Nat := 0
def estStarved : Nat := 1
def estFallback : Nat := 2

def State.mtrEst (s : State) (m : Fin 3) : Nat := s.get R.MG_STATUS_EST / 2 ^ (2 * m.val) % 4

/-- The estimator of phase `m` enters a state. G in use changes only at a frame boundary (R305): FALLBACK takes LG_FACT there. -/
def State.mtrEstEnter (s : State) (m : Fin 3) (st : Nat) : State :=
  let old := s.mtrEst m
  let s := (s.setBit R.MG_STATUS_EST (2 * m.val) (st % 2 == 1)).setBit R.MG_STATUS_EST (2 * m.val + 1) (st / 2 == 1)
  let s := s.modMtr fun t => { t with estAt := upd t.estAt m fun _ => s.age }
  if st = old then s else s.postMeter 0x602 [arg m.val, arg st, arg (s.get (R.LG_G m))]

/-- At a frame boundary a phase in FALLBACK takes LG_FACT as it stands. -/
def State.mtrFallback (s : State) : State :=
  forAll 3 (fun m s => if s.mtrEst m = estFallback then s.set (R.LG_G m) (s.get (R.LG_FACT_FACT m)) else s) s

/-- The taps of which `p` holds are followed no more. -/
def State.mtrDrop (s : State) (p : MtrTap → Bool) : State :=
  s.modMtr fun t => { t with taps := t.taps.filter fun x => !p x }

/-- EST_EN is written 0: every estimator falls back, and no tap is followed any more (R304, R305). -/
def State.mtrEstOff (s : State) : State := forAll 3 (fun m s => s.mtrEstEnter m estFallback) (s.mtrDrop fun _ => true)

/-- A tap starts: the engine follows it while EST_EN = 1. -/
def State.mtrTapStart (s : State) : State :=
  if s.flag R.MG_CTRL_EST_EN then s.modMtr fun t => { t with taps := t.taps ++ [{ no := t.tapNo }], tapNo := t.tapNo + 1 } else s

/-- A tap is abandoned, or ends without a point. -/
def State.mtrTapDrop (s : State) : State := s.mtrDrop fun x => !x.ended

/-- POST has ended; the points form with the close of the tap's last frame. -/
def State.mtrTapEnd (s : State) : State :=
  s.modMtr fun t => { t with taps := t.taps.map fun x => { x with ended := true } }

/-- The mean of a span. -/
def spanMean (sum : Int) (n : Nat) : Int := roundDiv sum n

/-- The candidate gain of phase `m` of a tap, if the point is valid (R304). -/
def State.gainPoint (s : State) (t : MtrTap) (m : Fin 3) : Option Nat :=
  let h (i : Fin 4) := spanMean (t.spans[i].high[m]) (t.spans[i].count)
  let l (i : Fin 4) := spanMean (t.spans[i].low[m]) (t.spans[i].count)
  let dl := l 1 - l 2
  if t.bad || t.lowBad[m] || (fins 4).any (fun i => t.spans[i].count == 0) || dl == 0
    || decide ((h 1 - h 2).natAbs < s.get R.MG_DI_G_DI * 256) || decide (s.get R.MG_REST_G_REST * 256 < (h 3 - h 0).natAbs) then none
  else
    let n := (h 1 - h 2) * 2 ^ 30
    let g := if dl < 0 then roundDiv (-n) dl.natAbs else roundDiv n dl.natAbs
    if (s.get R.MG_LIM_G_MIN : Int) * 65536 ≤ g ∧ g ≤ (s.get R.MG_LIM_G_MAX : Int) * 65536 then some g.toNat else none

/-- The points of a tap are taken. -/
def State.mtrPoints (s : State) (t : MtrTap) : State :=
  forAll 3 (fun m s => match s.gainPoint t m with
    | some g => (s.set (R.LG_G m) g).mtrEstEnter m estFresh
    | none => s) s

/-- Has every frame of a tap whose POST has ended closed? -/
def Metering.tapDone (t : Metering) (x : MtrTap) : Bool := x.ended && !t.waiting.any fun f => f.span.map Prod.fst == some x.no

/-- A frame boundary: FALLBACK takes LG_FACT, and the taps that are complete give their points (R304, R305). -/
def State.mtrBoundary (s : State) : State :=
  let done := s.mtr.taps.filter s.mtr.tapDone
  done.foldl (fun s x => s.mtrPoints x) (s.mtrFallback.mtrDrop s.mtr.tapDone)

/-- The angles of the phases, as in R282. -/
def mtrPhi (m : Fin 3) : BitVec 32 := if m.val = 0 then 0 else if m.val = 1 then 0x55555555 else 0xAAAAAAAB

def frameSin (f : MtrFrame) (m : Fin 3) : Int := (sinWord (BitVec.ofNat 32 f.angle - mtrPhi m)).toInt
def frameCos (f : MtrFrame) (m : Fin 3) : Int := (cosWord (BitVec.ofNat 32 f.angle - mtrPhi m)).toInt

/-- A frame of a tap span enters the sums, or spoils the tap (R304). -/
def State.spanFrame (s : State) (f : MtrFrame) (valid : Bool) : State :=
  match f.span with
  | some (no, i) =>
    let tap (f : MtrTap → MtrTap) : State := s.modMtr fun t => { t with taps := t.taps.map fun x => if x.no = no then f x else x }
    if !valid || !f.sync then tap fun x => { x with bad := true }
    else
      let term (x : Int) (m : Fin 3) : Int := roundDiv (x * frameSin f m) (2 ^ 32)
      let low (m : Fin 3) : Option Int := match s.lowValue m f with
        | some (x, false) => some x
        | _ => none
      tap fun x =>
        { x with
          lowBad := Vector.ofFn fun m => x.lowBad[m] || (low m).isNone,
          spans := upd x.spans i fun sp =>
            { count := sp.count + 1, high := Vector.ofFn fun m => sp.high[m] + term (s.mtrX (highIn m) f) m,
              low := Vector.ofFn fun m => sp.low[m] + term ((low m).getD 0) m } }
  | none => s

/-! ## Powers and blocks (R306) -/

/-- The integer nearest to the square root of `n / d`, ties to even. -/
def sqrtDiv (n d : Nat) : Nat :=
  let k := isqrtFrom (n / d) 128 0
  let x := 4 * n
  let y := d * ((2 * k + 1) * (2 * k + 1))
  if x < y then k else if x > y then k + 1 else if k % 2 = 0 then k else k + 1

/-- An 80-bit accumulator. -/
def State.macc (s : State) (i : Nat) : Nat :=
  s.get (R.MACC_LO_B0 i) + s.get (R.MACC_MID_B32 i) * 2 ^ 32 + s.get (R.MACC_HI_B64 i) * 2 ^ 64

def State.setMacc (s : State) (i n : Nat) : State :=
  ((s.set (R.MACC_LO_B0 i) n).set (R.MACC_MID_B32 i) (n / 2 ^ 32)).set (R.MACC_HI_B64 i) (n / 2 ^ 64)

/-- 1 mWh in units of 2^-36 W × 80 ps (R308). -/
def mtrUnit : Nat := 45000000000 * 2 ^ 36

/-- Adds `n` increments of accumulator PLS_SRC to the pulse books (R312). -/
def State.pulseCredit (s : State) (n : Nat) : State :=
  let e := s.get R.PLS_CTRL_PULSE_E
  if s.flag R.PLS_CTRL_EN && e != 0 then
    let c := s.get R.PLS_STATUS_PLS_CREDIT + n
    let s := s.set R.PLS_STATUS_PLS_CREDIT (c % e)
    let old := s.get R.PLS_STATUS_PLS_PEND
    let p := min 65535 (old + c / e)
    let s := s.set R.PLS_STATUS_PLS_PEND p
    if p = 65535 ∧ old < 65535 then s.postMeter 0x605 [16, 0] else s
  else s

/-- Credits accumulator `i` (R308). -/
def State.credit (s : State) (i : Fin 16) (amount : Nat) : State :=
  let total := s.mtr.residue[i] + amount
  let old := s.macc i
  let n := min (2 ^ 80 - 1 - old) (total / mtrUnit)
  let s := s.setMacc i (old + n)
  let s := s.modMtr fun t => { t with residue := upd t.residue i fun _ => min (mtrUnit - 1) (total - n * mtrUnit) }
  let s := if i.val = s.get R.PLS_CTRL_PLS_SRC ∧ 0 < n then s.pulseCredit n else s
  if 0 < n ∧ old + n = 2 ^ 80 - 1 then s.postMeter 0x605 [arg i.val, 0] else s

/-- What a block credits, from the signs of its energies (R307); `base` is 0 for total, 8 for fundamental. -/
def creditsOf (base : Nat) (p q : Int) (ap : Nat) : List (Fin 16 × Nat) :=
  let i (k : Nat) : Fin 16 := ⟨(base + k) % 16, Nat.mod_lt _ (by decide)⟩
  let imp := decide (0 ≤ p)
  [(i (if imp then 0 else 1), p.natAbs),
   (i (if 0 ≤ q then (if imp then 2 else 3) else (if imp then 5 else 4)), q.natAbs),
   (i (if imp then 6 else 7), ap)]

/-- A mean power of a block in S40.8 watts (R311). Where no value of the format holds it, the word is open. -/
def meanPower (e : Int) (t : Nat) : Word :=
  let x := if t = 0 then Config.divByZero e else roundDiv e (t * 2 ^ 28)
  if saturates 40 x then Config.unstatedWord x else BitVec.ofInt 40 x

/-- A value of a SYSIN word; open where it does not fit. -/
def sysWord (x : Int) : Word := if saturates 40 x then Config.unstatedWord x else BitVec.ofInt 40 x

/-- The fundamental quantities of a complete block: E_P, E_Q, E_S (R306). -/
def MtrBlock.fundamental (b : MtrBlock) (nf : Nat) : Int × Int × Nat :=
  let co (x : Int) : Int := roundDiv (2 * x) (nf * 2 ^ 32)
  let sum (g : Fin 3 → Int) : Int := g 0 + g 1 + g 2
  let p := sum fun m => co b.av[m] * co b.ai[m] + co b.bv[m] * co b.bi[m]
  let q := sum fun m => co b.bv[m] * co b.ai[m] - co b.av[m] * co b.bi[m]
  let ap := sum fun m =>
    (sqrtDiv ((co b.av[m] ^ 2 + co b.bv[m] ^ 2) * (co b.ai[m] ^ 2 + co b.bi[m] ^ 2)).toNat 1 : Int)
  (roundDiv (p * b.dur) 2, roundDiv (q * b.dur) 2, (roundDiv (ap * b.dur) 2).toNat)

/-- The status word of R311. -/
def State.mtrStatusWord (s : State) : Word :=
  BitVec.ofNat 40 (s.get R.MTR_STATUS_MODE + 4 * s.get R.MTR_STATUS_LIVE + 8 * s.get R.MTR_STATUS_RANGE_L
    + 64 * s.get R.MG_STATUS_EST + 4096 * s.get R.MTR_STATUS_RESIDUAL)

/-- Sets the SYSIN words from `base` on. -/
def State.mtrWords (s : State) (base : Nat) (ws : List Word) : State :=
  s.modMtr fun t => { t with words := Vector.ofFn fun i =>
    if base ≤ i.val ∧ i.val < base + ws.length then ws.getD (i.val - base) 0 else t.words[i] }

/-- The total quantities of a block with valid frames, the residual test, and what is credited (R306, R310). -/
def State.blockTotals (s : State) (b : MtrBlock) : State × List (Fin 16 × Nat) :=
  let v (m : Fin 3) := sqrtDiv b.sqV[m] b.valid
  let c (m : Fin 3) := sqrtDiv b.sqI[m] b.valid
  let ap := (v 0 * c 0 + v 1 * c 1 + v 2 * c 2) * b.durV
  let s := s.mtrWords 0 [meanPower b.p b.dur, meanPower b.q b.dur, meanPower ap b.dur]
  let s := s.mtrWords 6 [sysWord (v 0), sysWord (v 1), sysWord (v 2), sysWord (c 0), sysWord (c 1), sysWord (c 2),
    sysWord (sqrtDiv b.sqN b.valid)]
  let r := sqrtDiv b.sqR b.valid
  let s := if r > s.get R.RES_LIM_RES_LIM * 256 then (s.setFlag R.MTR_STATUS_RESIDUAL true).postMeter 0x603 [0, arg r]
    else s.setFlag R.MTR_STATUS_RESIDUAL false
  (s, creditsOf 0 b.p b.q ap)

/-- The fundamental quantities of a complete block, or the drop. -/
def State.blockFund (s : State) (b : MtrBlock) : State × List (Fin 16 × Nat) :=
  if b.whole && b.frames == s.nf then
    let f := b.fundamental s.nf
    (s.mtrWords 3 [meanPower f.1 b.dur, meanPower f.2.1 b.dur, meanPower f.2.2 b.dur], creditsOf 8 f.1 f.2.1 f.2.2)
  else (s.bumpS R.MTR_CNT1_FUND_DROP, [])

/-- A block ends at `t` (R306 to R308, R310). -/
def State.blockEnd (s : State) (t : Time) : State :=
  let b := s.mtr.block
  let (s, total) := if b.valid = 0 then (s, []) else s.blockTotals b
  let (s, fund) := s.blockFund b
  let s := (total ++ fund).foldl (fun s c => s.credit c.1 c.2) s
  let s := s.modMtr fun m =>
    { m with block := {}, blocks := m.blocks + 1, blockEnd := t, creditAt := some (s.age - s.fine), credits := total ++ fund }
  s.mtrWords 13 [s.mtrStatusWord, s.mtr.blocks, 0]

/-- The frame enters its block as a gap. -/
def MtrBlock.gap (b : MtrBlock) (f : MtrFrame) : MtrBlock := { b with frames := b.frames + 1, whole := false, dur := b.dur + f.delta }

/-- Can the block still be complete with this frame? A complete block starts at target 0. -/
def MtrBlock.goesOn (b : MtrBlock) (f : MtrFrame) : Bool :=
  f.sync && (if b.frames = 0 then f.target == 0 else b.whole && f.target == b.target)

/-- A valid frame enters its block: voltages, currents, neutral, Q of the frame. -/
def MtrBlock.add (b : MtrBlock) (f : MtrFrame) (nf : Nat) (v i : Vector Int 3) (n q : Int) : MtrBlock :=
  let p := v[0] * i[0] + v[1] * i[1] + v[2] * i[2]
  let sq (x : Int) : Nat := x.natAbs * x.natAbs
  { frames := b.frames + 1, valid := b.valid + 1, whole := b.goesOn f, target := (f.target + 2 ^ 32 / nf) % 2 ^ 32,
    dur := b.dur + f.delta, durV := b.durV + f.delta, p := b.p + p * f.delta, q := b.q + q * f.delta,
    sqV := Vector.ofFn fun m => b.sqV[m] + sq v[m], sqI := Vector.ofFn fun m => b.sqI[m] + sq i[m], sqN := b.sqN + sq n,
    sqR := b.sqR + sq (i[0] + i[1] + i[2] + n),
    av := Vector.ofFn fun m => b.av[m] + v[m] * frameSin f m, bv := Vector.ofFn fun m => b.bv[m] + v[m] * frameCos f m,
    ai := Vector.ofFn fun m => b.ai[m] + i[m] * frameSin f m, bi := Vector.ofFn fun m => b.bi[m] + i[m] * frameCos f m }

/-- A gap frame (R302). -/
def State.gapFrame (s : State) (f : MtrFrame) (k : Fin 10) : State :=
  let s := s.bumpS R.MTR_CNT0_GAP_FRAMES
  let s := s.postMeter 0x604 [arg k.val, arg (s.get R.MTR_CNT0_GAP_FRAMES)]
  (s.setFlag R.MTR_STATUS_LIVE false).modMtr fun t => { t with block := t.block.gap f, past := (none :: t.past).take 64 }

/-- A valid frame. -/
def State.validFrame (s : State) (f : MtrFrame) : State :=
  let v : Vector Int 3 := Vector.ofFn fun m => s.mtrX ⟨m.val, by omega⟩ f
  let n := s.mtrX 6 f
  let (ia, s) := s.phaseCurrent 0 f
  let (ib, s) := s.phaseCurrent 1 f
  let (ic, s) := s.phaseCurrent 2 f
  let i : Vector Int 3 := #v[ia, ib, ic]
  let (q, s) := match s.mtr.past[s.nf / 4 - 1]? with
    | some (some u) => (u.1 * ia + u.2.1 * ib + u.2.2 * ic, s)
    | _ => ((0 : Int), s.bumpS R.MTR_CNT1_QSKIP_CNT)
  (s.setFlag R.MTR_STATUS_LIVE true).modMtr fun t =>
    { t with block := t.block.add f s.nf v i n q, past := (some (v[0], v[1], v[2]) :: t.past).take 64 }

/-- A frame closes. -/
def State.closeFrame (s : State) (f : MtrFrame) : State :=
  let s := (s.modMtr fun t => { t with waiting := t.waiting.tail, past := if f.fresh then [] else t.past })
  let s := s.countExtrap f
  let miss := s.missing f
  let s := s.spanFrame f miss.isNone
  let s := match miss with
    | some k => s.gapFrame f k
    | none => s.validFrame f
  let s := if f.last then s.blockEnd (s.time - BitVec.ofNat 48 (s.age - f.at_)) else s
  s.mtrBoundary

/-- R301: the oldest frame that waits closes, M_WAIT after its instant. -/
def execFrameClose (s : State) : Host.Outcome State Fault Refusal :=
  match s.mtr.waiting with
  | f :: _ => .next ((s.reachAge (f.at_ + s.get R.M_WAIT_WAIT)).closeFrame f)
  | [] => .next s

/-- R305: the gain estimator of a phase has had no valid point for its time. -/
def execMtrEstTimeout (m : Fin 3) (s : State) : Host.Outcome State Fault Refusal :=
  if s.mtrEst m = estFresh then
    .next ((s.reachAge (s.mtr.estAt[m] + s.get R.MG_STARVE_M_STARVE_T * 125000000)).mtrEstEnter m estStarved)
  else if s.mtrEst m = estStarved then
    .next ((s.reachAge (s.mtr.estAt[m] + s.get R.MG_STARVE_M_STALE_T * 125000000)).mtrEstEnter m estFallback)
  else .next s

/-! ## Enabling and clearing (R300, R303, R309, R313) -/

def State.uq (s : State) (lo hi : Fld) : Nat := s.get lo + s.get hi * 2 ^ 32

/-- The engine starts: the first frame is placed from this instant (DEDUCED, log entry 32). -/
def State.mtrStart (s : State) : State :=
  let s := if s.mtr.reported then s
    else (s.modMtr fun t => { t with reported := true }).postMeter 0x606
      [0, arg (s.uq R.UQ_L_LO_UQ_L R.UQ_L_HI_UQ_L), arg (s.uq R.UQ_N_LO_UQ_N R.UQ_N_HI_UQ_N), arg (s.get R.BK_TIME_SECONDS)]
  let s := (forAll 3 (fun m s => (s.setRange m false).mtrEstEnter m estFallback) s).mtrFallback
  let n := s.mtrPlace
  let s := s.modMtr fun t =>
    { t with next := some (s.age + n.1, n.2.1, n.2.2), first := true, fresh := true, freeN := 0, waiting := [], past := [],
             block := {}, hold := Vector.replicate 3 0, blocks := 0, taps := [] }
  s.mtrMode (if n.2.1 then 2 else 1)

/-- The engine stops. -/
def State.mtrStop (s : State) : State :=
  let s := s.modMtr fun t => { t with next := none, waiting := [], past := [], block := {}, taps := [] }
  (s.setFlag R.MTR_STATUS_LIVE false).mtrMode 0

/-- MTR_CTRL.EN takes a value. -/
def State.setMtrEn (s : State) (on : Bool) : State :=
  if on = s.mtrOn then s else if on then (s.setFlag R.MTR_CTRL_EN true).mtrStart else (s.setFlag R.MTR_CTRL_EN false).mtrStop

/-- R300: a write of MTR_CTRL.EN. -/
def execMtrEn (a : Agent) (on : Bool) (s : State) : Host.Outcome State Fault Refusal :=
  if s.mayEnable a 8 R.MTR_CTRL_EN on then .next (s.setMtrEn on) else .next s

/-- Every accumulator, residue and pulse book to 0; a credit of this very tick acts after the clear (R309). -/
def State.mtrClear (s : State) : State :=
  let s := forAll 16 (fun i s => s.setMacc i.val 0) s
  let s := s.modMtr fun t => { t with residue := Vector.replicate 16 0 }
  let s := (s.set R.PLS_STATUS_PLS_CREDIT 0).set R.PLS_STATUS_PLS_PEND 0
  if s.mtr.creditAt = some (s.age - s.fine) then s.mtr.credits.foldl (fun s c => s.credit c.1 c.2) s else s

/-- R309: a write of MTR_CTRL.CLR = 1. -/
def execMtrClr (a : Agent) (s : State) : Host.Outcome State Fault Refusal :=
  if s.mayWrite a 8 then .next s.mtrClear else .next s

/-! ## Pulses (R312) -/

/-- PLS_W in fine ticks. -/
def State.plsWidth (s : State) : Nat := s.get R.PLS_W_PLS_W * 1250000

/-- EPLS takes a level of activity. -/
def State.setEpls (s : State) (on : Bool) : State :=
  if s.mtr.epls = on then s else s.modMtr fun t => { t with epls := on, eplsAt := some s.age }

/-- The level of EPLS: POL sets the active one (R312). -/
def State.eplsLevel (s : State) : Bool := s.mtr.epls == s.flag R.PLS_CTRL_POL

/-- May EPLS pulse? It is the meter easel's, and an unassigned output stays inactive (R109, R349). -/
def State.eplsOwned (s : State) : Bool := s.ownerMeter.isSome && !s.sup.inReset

/-- R312: a pulse starts once EPLS has been inactive for PLS_W. -/
def execEplsPulseStart (s : State) : Host.Outcome State Fault Refusal :=
  if s.flag R.PLS_CTRL_EN && s.eplsOwned && !s.mtr.epls && s.get R.PLS_STATUS_PLS_PEND != 0 then
    let s := match s.mtr.eplsAt with
      | some t => s.reachAge (t + s.plsWidth)
      | none => s
    .next ((s.countDown R.PLS_STATUS_PLS_PEND).setEpls true)
  else .next s

/-- R312: a pulse ends after PLS_W. -/
def execEplsPulseEnd (s : State) : Host.Outcome State Fault Refusal :=
  match s.mtr.epls, s.mtr.eplsAt with
  | true, some t => .next ((s.reachAge (t + s.plsWidth)).setEpls false)
  | _, _ => .next s

/-! ## Unmetered charge (R313) -/

/-- A sample of one input in mA, if it counts. -/
def State.bkCounts (s : State) (x : Int) (gain : Nat) : Option Nat :=
  let ma := (roundDiv (x * gain) (2 ^ 24)).natAbs
  if !s.flag R.MTR_STATUS_LIVE && decide (s.get R.BK_CTRL_BK_THR ≤ ma) then some ma else none

/-- Adds to a 48-bit counter of class S. -/
def State.addUq (s : State) (lo hi : Fld) (n : Nat) : State :=
  let old := s.uq lo hi
  let new := min (2 ^ 48 - 1) (old + n)
  let s := (s.set lo new).set hi (new / 2 ^ 32)
  if new = 2 ^ 48 - 1 ∧ old < new then s.postF0 0x51 (counterArgs lo) else s

/-- Adds a counted sample. -/
def State.bkAdd (s : State) (lo hi : Fld) (n : Option Nat) : State :=
  match n with
  | some ma => s.addUq lo hi ma
  | none => s

/-- The range of VBAT in mV (R391). -/
def vbatOk (mv : Nat) : Bool := decide (2200 ≤ mv ∧ mv ≤ 3600)

/-- R313: the backup front end samples both inputs, with VBAT at `vbatMv`; seconds are runs of 4,096 samples. -/
def execBkSample (line neutral : Int) (vbatMv : Nat) (s : State) : Host.Outcome State Fault Refusal :=
  let s := { s with sup := { s.sup with vbatMv := vbatMv } }
  let s := if s.sup.inReset then s else s.setFlag R.SUP_STATUS_VBAT_OK (decide (2200 ≤ vbatMv))
  if s.flag R.BK_CTRL_EN && vbatOk vbatMv then
    let l := s.bkCounts line (s.get R.BK_GAIN_L_GAIN_L)
    let n := s.bkCounts neutral (s.get R.BK_GAIN_N_GAIN_N)
    let s := (s.bkAdd R.UQ_L_LO_UQ_L R.UQ_L_HI_UQ_L l).bkAdd R.UQ_N_LO_UQ_N R.UQ_N_HI_UQ_N n
    let any := l.isSome || n.isSome
    let s := if any && !s.mtr.bkCounted then s.bumpS R.BK_TIME_SECONDS else s
    let s := { s with tick := { s.tick with bk :=
      (s.tick.bk.1 + l.getD 0, s.tick.bk.2.1 + n.getD 0, s.tick.bk.2.2 + (any && !s.mtr.bkCounted).toNat) } }
    let k := s.mtr.bkPhase + 1
    .next (s.modMtr fun t => { t with bkPhase := k % 4096, bkCounted := (t.bkCounted || any) && decide (k % 4096 ≠ 0) })
  else .next s

/-- UQ_L, UQ_N and BK_TIME are cleared: what was added in the same tick stands (R9). -/
def State.bkClear (s : State) : State :=
  let b := s.tick.bk
  let s := (s.set R.UQ_L_LO_UQ_L b.1).set R.UQ_L_HI_UQ_L (b.1 / 2 ^ 32)
  ((s.set R.UQ_N_LO_UQ_N b.2.1).set R.UQ_N_HI_UQ_N (b.2.1 / 2 ^ 32)).set R.BK_TIME_SECONDS b.2.2

/-- R313: a write of BK_CTRL.CLR = 1. -/
def execBkClr (a : Agent) (s : State) : Host.Outcome State Fault Refusal :=
  if s.mayWrite a 8 then .next s.bkClear else .next s

/-! ## What a pass reads (R311) -/

def State.mtrSysin (s : State) (e : Fin 8) : List (Nat × TWord) :=
  if s.ownerMeter = some e then (fins 16).map fun i => (0x24240 + i.val, TWord.mk s.mtr.words[i] false)
  else (List.range 16).map fun i => (0x24240 + i, TWord.mk 0x8000000000 true)

end Sys2Proof.Machine
end

