-- ==== Sys2Proof/Machine/Conversion.lean ====
section
/-! DEFINITION. Conversion: triggers, sequences, values, landing into the tagged queues, and calibration (Conversion and
Tagged Queues). Instants are on the scale of the field `age`. -/

namespace Sys2Proof.Machine

def State.pair (s : State) (p : Fin 8) : AdcPair := s.adc[p]
def State.modPair (s : State) (p : Fin 8) (f : AdcPair → AdcPair) : State := { s with adc := upd s.adc p f }
def State.conv (s : State) (p : Fin 8) (c : Fin 2) : AdcConv := (s.pair p).conv[c]
def State.modConv (s : State) (p : Fin 8) (c : Fin 2) (f : AdcConv → AdcConv) : State :=
  s.modPair p fun x => { x with conv := upd x.conv c f }
def State.pairOwner (s : State) (p : Fin 8) : Option (Fin 8) := s.owner (R.OWN_ADCP p)
def State.inter (s : State) (p : Fin 8) : Bool := s.flag (R.ADC_PCTRL_MODE p)

/-! ## Queue (R198 to R202) -/

/-- Does a downbeat of easel `e` still to come fire on this fine tick? A candidate that FINE_OK holds back is none (R51). -/
def State.dbNow (s : State) (e : Fin 8) : Bool := s.dbPoint e == some s.time && !s.dbMoves e

/-- The period to which an entry that lands now belongs (R198). -/
def State.periodNow (s : State) (e : Fin 8) : Option (BitVec 48) :=
  if s.dbNow e then some (s.nextDb e) else (s.ez e).lastDb.map fun _ => (s.ez e).dbCount

/-- DB of a sample record that lands now (R198). -/
def State.sampleDb (s : State) (e : Fin 8) : BitVec 48 := (s.periodNow e).getD (s.nextDb e - 1)

/-- An entry enters the queue, and serves the inputs of an open pass; a full queue drops it (R199, R202). -/
def State.enqueue (s : State) (e : Fin 8) (tag : BitVec 16) (flags : BitVec 8) (ts : Stamp) (val : Word) : State :=
  let n := (s.ez e).queue.length
  if n < 128 then
    let db := s.periodNow e
    let s := s.modEz e fun z => { z with queue := z.queue ++ [⟨val, tag, flags, ts, s.time, db⟩] }
    let s := (s.set (R.Q_STATUS_FILL e) (n + 1)).set (R.Q_PEAK_PEAK e) (max (s.get (R.Q_PEAK_PEAK e)) (n + 1))
    match (s.ez e).pass with
    | some p => if db = some p.openDb then s.landTag e tag val flags else s
    | none => s
  else
    let s := (s.bumpW (R.QOVR_CNT_COUNT e) (R.Q_STATUS_QOVR_OVF e)).raise (R.Q_STATUS_QOVR e)
    s.postEasel e 0x200 [0, arg tag.toNat, arg (s.ez e).dbCount.toNat]

/-- A result lands: in the queue, in sample staging, in the metering engine (R200). -/
def State.land (s : State) (e : Fin 8) (queued smp mtr : Bool) (tag : BitVec 16) (flags : BitVec 8) (ts : Stamp) (val : Word) :
    State :=
  let s := if queued then s.enqueue e tag flags ts val else s
  let s := if smp then s.landSample e (s.sampleDb e) ⟨tag, flags, ts, val⟩ else s
  if mtr && s.ownerMeter == some e then s.mtrCopy tag val flags ts else s

/-! ## Values (R193) -/

/-- The calibrated value of a raw code. -/
def calibrated (ofs : BitVec 16) (gain r : Nat) : Int := roundDiv ((4 * r - ofs.toInt) * gain) (2 ^ 14)

/-- The calibrated value of a conversion on converter `c` of pair `p`. -/
def State.codeValue (s : State) (p : Fin 8) (c : Fin 2) (r : BitVec 14) : Int :=
  if c = 0 then calibrated (BitVec.ofNat 16 (s.get (R.CAL_A_OFS p))) (s.get (R.CAL_A_GAIN p)) r.toNat
  else calibrated (BitVec.ofNat 16 (s.get (R.CAL_B_OFS p))) (s.get (R.CAL_B_GAIN p)) r.toNat

/-- The sum of the calibrated values of a step; in INTERLEAVE the conversions alternate, from A. -/
def State.codeSum (s : State) (p : Fin 8) (inter : Bool) : Fin 2 → List (BitVec 14) → Int
  | _, [] => 0
  | c, r :: rs => s.codeValue p c r + s.codeSum p inter (if inter then 1 - c else c) rs

/-- VAL of a step. -/
def State.stepValue (s : State) (p : Fin 8) (c : Fin 2) (x : AdcLand) (codes : List (BitVec 14)) : Word :=
  BitVec.ofInt 40 (roundDiv (s.codeSum p x.inter c codes) (2 ^ (R.STEP_SHIFT p x.step).read x.cfg))

/-- N of a step. -/
def AdcLand.count (x : AdcLand) : Nat := (R.STEP_AVG_M1 0 0).read x.cfg + 1

/-- FLAGS of a step (R197); a step that converted the internal ground carries INVALID only. -/
def stepFlags (x : AdcLand) (low : Bool) (codes : List (BitVec 14)) : BitVec 8 :=
  if x.ground then 1
  else BitVec.ofNat 8 (low.toNat + 2 * (codes.any fun r => r == 0 || r == 16383).toNat + 4 * x.defer.toNat + 8 * x.coast.toNat)

/-- TAG of a step (R196). -/
def stepTag (p : Fin 8) (x : AdcLand) : BitVec 16 := BitVec.ofNat 16 (p.val * 2 ^ 11 + x.seq.val * 2 ^ 9 + x.step * 2 ^ 4)

/-! ## Sequences (R187, R188, R192) -/

/-- The converter that runs sequence `q`. -/
def State.convOf (s : State) (p : Fin 8) (q : Fin 4) : Fin 2 := if !s.inter p && decide (2 ≤ q.val) then 1 else 0

/-- Can the pair run sequence `q`: INTERLEAVE has 0 and 1 only? -/
def State.seqExists (s : State) (p : Fin 8) (q : Fin 4) : Bool := !s.inter p || decide (q.val < 2)

/-- The steps of a sequence from step `j`, with the first conversion at `t`: those to land, and the instant at which the
converter is free. -/
def State.placeSteps (s : State) (p : Fin 8) (q : Fin 4) (defer coast : Bool) : Nat → Nat → Nat → List AdcLand × Nat
  | 0, _, t => ([], t)
  | n + 1, j, t =>
    let cfg := s.word (R.STEP_AIN p j)
    let k := (R.STEP_AVG_M1 0 0).read cfg
    let ain := (R.STEP_AIN 0 0).read cfg
    let inter := s.inter p
    let last := t + (if inter then 250 else 500) * k
    let skew : Int := if inter && k % 2 == 1 then (BitVec.ofNat 4 (s.get (R.ADC_PCTRL_SKEW_B p))).toInt else 0
    let x : AdcLand := { seq := q, step := j, cfg := cfg, first := t, last := (last + skew).toNat, inter := inter,
                         ground := s.owner (R.OWN_AIN ain) != s.pairOwner p || decide (48 ≤ ain),
                         defer := defer, coast := coast, low := false }
    let r := s.placeSteps p q defer coast n (j + 1) (if inter && k % 2 == 1 && n != 0 then last + 250 else last + 500)
    (x :: r.1, r.2)

/-- A fired sequence starts at the present instant (R188); one that starts after its trigger instant carries DEFER. -/
def State.seqStart (s : State) (p : Fin 8) (x : AdcPend) : State :=
  let defer := x.late || decide (x.trig < s.age)
  let r := s.placeSteps p x.seq defer x.coast (s.get (R.ADC_SEQ_LEN_M1 p x.seq) + 1) (s.get (R.ADC_SEQ_FIRST p x.seq)) s.age
  s.modConv p (s.convOf p x.seq) fun c => { c with run := some (x, r.2), lands := c.lands ++ r.1 }

/-- Is a converter busy, with sequences that wait for it counted? -/
def State.convBusy (s : State) (c : AdcConv) : Bool :=
  !c.pend.isEmpty || (match c.run with
    | some (_, t) => decide (s.age < t)
    | none => false)

/-- Is sequence `q` running on the converter, and is it pending? -/
def State.seqRuns (s : State) (c : AdcConv) (q : Fin 4) : Bool :=
  match c.run with
  | some (x, t) => x.seq == q && decide (s.age < t)
  | none => false
def AdcConv.waits (c : AdcConv) (q : Fin 4) : Bool := c.pend.any fun x => x.seq == q

/-- Enters a pending sequence in the order of trigger instants, ties to the lower number. -/
def pendInsert (x : AdcPend) : List AdcPend → List AdcPend
  | [] => [x]
  | y :: l => if x.trig < y.trig ∨ (x.trig = y.trig ∧ x.seq < y.seq) then x :: y :: l else y :: pendInsert x l

/-- Does a sequence fired now go before the one that runs: both fired at this instant, when the converter was free, and it has
the lower number (R192)? -/
def State.goesBefore (s : State) (c : AdcConv) (q : Fin 4) : Bool :=
  match c.run with
  | some (x, t) => x.trig == s.age && decide (q < x.seq) && decide (s.age < t)
  | none => false

/-- The converter whose sequence, started at this instant, gives way: the sequence waits, and none of its steps is placed. -/
def AdcConv.giveWay (c : AdcConv) (now : Nat) : AdcConv :=
  match c.run with
  | some (x, _) => { run := none, pend := pendInsert x c.pend,
                     lands := c.lands.filter fun y => y.seq != x.seq || decide (y.first < now) }
  | none => c

/-- A trigger of sequence `q` arrives at this instant: it starts, waits, or is dropped (R192). -/
def State.adcFire (s : State) (p : Fin 8) (q : Fin 4) (late coast : Bool) : State :=
  let c := s.conv p (s.convOf p q)
  if s.seqRuns c q || c.waits q then
    match s.pairOwner p with
    | some e => (s.bumpW (R.TRIG_DROP_CNT_COUNT e) (R.Q_STATUS_TDROP_OVF e)).postEasel e 0x201
        [arg (4 * p.val + q.val), arg (s.get (R.ADC_SEQ_SRC p q))]
    | none => s
  else if s.goesBefore c q then
    (s.modConv p (s.convOf p q) fun c => c.giveWay s.age).seqStart p ⟨q, s.age, late, coast⟩
  else if s.convBusy c then s.modConv p (s.convOf p q) fun c => { c with pend := pendInsert ⟨q, s.age, late, coast⟩ c.pend }
  else s.seqStart p ⟨q, s.age, late, coast⟩

/-! ## Trigger instants (R190, R191, R240) -/

/-- May sequence `q` fire: enabled, in a mode that has it, its pair's owner running? -/
def State.seqArmed (s : State) (p : Fin 8) (q : Fin 4) : Bool :=
  s.bit (R.ADC_PCTRL_SEQ_EN p) q.val && s.seqExists p q && (match s.pairOwner p with
    | some e => s.run e
    | none => false)

/-- The carrier position of a sequence (R240). -/
def State.seqPos (s : State) (p : Fin 8) (q : Fin 4) (l : Fin 64) : Nat :=
  (roundDiv (s.get (R.ADC_SEQ_POS p q) * s.period l) 32).toNat

/-- What fires sequence `q` next, its instant without OFFSET; none where nothing will. -/
def State.nextTrigger (s : State) (p : Fin 8) (q : Fin 4) : Option Nat :=
  let src := s.get (R.ADC_SEQ_SRC p q)
  let ofs := s.get (R.ADC_TOFS_OFFSET p q)
  if src = 0 then
    match s.pairOwner p with
    | some e => if (s.ez e).lastDb = (s.pair p).fired[q] then none else (s.ez e).lastDb
    | none => none
  else if src = 1 then
    let l : Fin 64 := ⟨s.get (R.ADC_SEQ_LEG p q) % 64, Nat.mod_lt _ (by decide)⟩
    if s.ownerLeg l = s.pairOwner p then
      let from_ := max (s.age - ofs) (match (s.pair p).fired[q] with
        | some t => t + 1
        | none => 0)
      some (from_ + ticksFrom (s.timeAt from_) (s.phaseAt l (s.seqPos p q l) (s.timeAt from_)))
    else none
  else if src = 3 then ((s.pair p).routed.find? fun x => x.1 == q).map Prod.snd
  else none

/-- The books of a trigger that has come: what fired, or the ROUTER trigger that is served. -/
def State.triggerTaken (s : State) (p : Fin 8) (q : Fin 4) (base : Nat) : State :=
  if s.get (R.ADC_SEQ_SRC p q) = 3 then
    s.modPair p fun x => { x with routed := x.routed.erase (q, base) }
  else s.modPair p fun x => { x with fired := upd x.fired q fun _ => some base }

/-- R190: the trigger instant of a sequence with SRC = DOWNBEAT, PWM or ROUTER, its OFFSET included. Angle triggers come with
ANGLE_EVENT_FIRE. A sequence that is disabled at that instant, or whose pair's owner is stopped, does not fire. -/
def execAdcTrigger (p : Fin 8) (q : Fin 4) (s : State) : Host.Outcome State Fault Refusal :=
  match s.nextTrigger p q with
  | some base =>
    let s := (s.reachAge (base + s.get (R.ADC_TOFS_OFFSET p q))).triggerTaken p q base
    .next (if s.seqArmed p q then s.adcFire p q false false else s)
  | none => .next s

/-- R192: the converter becomes free, and its first pending sequence starts; DEFER where that is after its trigger. -/
def execSequenceStart (p : Fin 8) (c : Fin 2) (s : State) : Host.Outcome State Fault Refusal :=
  match (s.conv p c).pend with
  | x :: rest =>
    let s := match (s.conv p c).run with
      | some (_, t) => s.reachAge t
      | none => s
    let s := s.modConv p c fun y => { y with pend := rest }
    .next (s.seqStart p x)
  | [] => .next s

/-! ## Landing (R189, R194) -/

/-- VANA crosses its warning level: conversions that ran while it was below are marked (R197, R205). -/
def State.vanaCross (s : State) (low : Bool) : State :=
  match s.sup.vanaLow, low with
  | none, true => { s with sup := { s.sup with vanaLow := some s.age } }
  | some t, false =>
    let mark (x : AdcLand) : AdcLand := { x with low := x.low || (decide (x.first ≤ s.age) && decide (t ≤ x.last + 500)) }
    let adc := s.adc.map fun p => { p with conv := p.conv.map fun c => { c with lands := c.lands.map mark } }
    { s with adc := adc, sup := { s.sup with vanaLow := none } }
  | _, _ => s

/-- Did any conversion of a step that lands now run with VANA below its warning level? -/
def State.ranLow (s : State) (x : AdcLand) : Bool :=
  x.low || (match s.sup.vanaLow with
    | some t => decide (t ≤ x.last + 500)
    | none => false)

/-- The result of a step lands. -/
def State.landStep (s : State) (p : Fin 8) (c : Fin 2) (x : AdcLand) (codes : List (BitVec 14)) : State :=
  match s.pairOwner p with
  | some e =>
    let ts := stamp (s.timeAt (x.first + (x.last - x.first) / 2))
    s.land e true ((R.STEP_SMP 0 0).read x.cfg == 1) ((R.STEP_MTR 0 0).read x.cfg == 1) (stepTag p x)
      (stepFlags x (s.ranLow x) codes) ts (s.stepValue p c x codes)
  | none => s

/-- When the oldest step of a converter lands (R189), and when the oldest pod sample of a link does (R195). -/
def State.stepLands (s : State) (p : Fin 8) (c : Fin 2) : Option Nat :=
  (s.conv p c).lands.head?.map fun x => s.coarseAt (x.last + 1500)
def State.podLands (s : State) (p : Fin 16) : Option Nat := (s.link p).landing.head?.map fun x => s.coarseAt (x.at_ + 500)

/-- Is it the turn, at `t`, of the source with this place in the order of R198: does no source before it still land a result of
the same easel at `t`? -/
def State.landTurn (s : State) (e : Option (Fin 8)) (t rank : Nat) : Bool :=
  !((fins 8).any fun p => (fins 2).any fun c =>
      decide (2 * p.val + c.val < rank) && s.pairOwner p == e && s.stepLands p c == some t)
  && !((fins 16).any fun p => match (s.link p).landing with
      | x :: _ => decide (16 + (podCh p x.ch).val < rank) && s.owner (R.OWN_PODCH (podCh p x.ch)) == e && s.podLands p == some t
      | [] => false)

/-- R189: the oldest step of a converter lands, with the raw codes of its conversions; a list of another length is no result
of the step. Results of one fine tick land in the order of R198: while it is another source's turn, this landing has not
come. -/
def execAdcStepLand (p : Fin 8) (c : Fin 2) (codes : List (BitVec 14)) (s : State) : Host.Outcome State Fault Refusal :=
  match (s.conv p c).lands with
  | x :: rest =>
    let t := s.coarseAt (x.last + 1500)
    if codes.length = x.count ∧ s.landTurn (s.pairOwner p) t (2 * p.val + c.val) = true then
      .next (((s.reachAge t).modConv p c fun y => { y with lands := rest }).landStep p c x codes)
    else .next s
  | [] => .next s

/-! ## Calibration (R203) -/

/-- Does the agent reach the block of a resource of this owner: the F0 window, or the alias in the owner's window (R382)? -/
def State.reachesOwned (s : State) (a : Agent) (o : Option (Fin 8)) : Bool :=
  s.reaches a || (match a with
    | .fn e => o == some e && !s.sup.inReset
    | _ => false)

/-- R203: a write of CAL. -/
def execCal (p : Fin 8) (a : Agent) (s : State) : Host.Outcome State Fault Refusal :=
  if s.reachesOwned a (s.pairOwner p) && s.get (R.ADC_PCTRL_SEQ_EN p) == 0 && !s.flag (R.ADC_PCTRL_CAL_BUSY p) then
    .next (s.setFlag (R.ADC_PCTRL_CAL_BUSY p) true)
  else .next s

/-- R203: self-calibration ends, with CAL_A and CAL_B as measured, or out of range. -/
def execCalDone (p : Fin 8) (found : Option (BitVec 32 × BitVec 32)) (s : State) : Host.Outcome State Fault Refusal :=
  if s.flag (R.ADC_PCTRL_CAL_BUSY p) then
    let s := (s.setFlag (R.ADC_PCTRL_CAL_BUSY p) false).setFlag (R.ADC_PCTRL_CAL_OK p) found.isSome
    let put (s : State) (f g : Fld) (v : BitVec 32) : State := (s.set f v.toNat).set g (v.toNat / 2 ^ 16)
    let s := match found with
      | some (a, b) => put (put s (R.CAL_A_OFS p) (R.CAL_A_GAIN p) a) (R.CAL_B_OFS p) (R.CAL_B_GAIN p) b
      | none => s
    .next (s.postOwner (s.pairOwner p) 0x202 [arg p.val, arg (if found.isSome then 0 else 1),
      arg (s.word (R.CAL_A_OFS p)).toNat, arg (s.word (R.CAL_B_OFS p)).toNat])
  else .next s

/-! ## Easel reset (R204) -/

/-- Step 3: every sequence of the easel's pairs stops. -/
def State.stopPairs (s : State) (e : Fin 8) : State :=
  forAll 8 (fun p s => if s.pairOwner p = some e then s.modPair p fun _ => {} else s) s

/-! ## Pod samples (R195) -/

/-- Does PICK let this sample into the queue: it lands at or after the downbeat plus PICK_OFS, the first of its period? -/
def State.pickOk (s : State) (e : Fin 8) (ch : Fin 64) : Bool :=
  let base := if s.dbNow e then some s.age else (s.ez e).lastDb
  match base, s.periodNow e with
  | some t, some n => decide (t + s.get (R.POD_PICK_PICK_OFS ch) ≤ s.age) && s.picked[ch] != some n
  | _, _ => false

/-- A pod sample lands. After an easel reset of the meter easel its copies go on reaching the metering engine (R314). -/
def State.landPod (s : State) (ch : Fin 64) (value : BitVec 24) (podq : BitVec 2) : State :=
  match s.owner (R.OWN_PODCH ch) with
  | some e =>
    if s.flag (R.POD_MRG_EN ch) then
      let ts := stamp (s.time - BitVec.ofNat 48 (s.get (R.POD_PGD_PGD ch)))
      let flags := BitVec.ofNat 8 ((if 2 ≤ podq.toNat then 1 else 0) + 16 * podq.toNat)
      let tag := BitVec.ofNat 16 (0x4000 + ch.val * 2 ^ 8)
      let pick := s.flag (R.POD_MRG_PICK ch)
      let queued := s.run e && (!pick || s.pickOk e ch)
      let s := if pick && queued then { s with picked := upd s.picked ch fun _ => s.periodNow e } else s
      s.land e queued (s.run e && s.flag (R.POD_MRG_SMP ch)) (s.flag (R.POD_MRG_MTR ch)) tag flags ts (value.signExtend 40)
    else match s.mtr.kept.find? fun x => x.1 == ch with
      | some x => s.land e false false true (BitVec.ofNat 16 (0x4000 + ch.val * 2 ^ 8))
          (BitVec.ofNat 8 ((if 2 ≤ podq.toNat then 1 else 0) + 16 * podq.toNat)) (stamp (s.time - BitVec.ofNat 48 x.2))
          (value.signExtend 40)
      | none => s
  | none => s

end Sys2Proof.Machine
end

