-- ==== Sys2Proof/Machine/Grid.lean ====
section
/-! DEFINITION. The grid-function unit and the MPPT engine: reference synthesis, ride-through, islanding tests, taps, the
impedance estimator, strings (Grid and Source Functions). -/

namespace Sys2Proof.Machine

/-- The length of an evaluation tick in fine ticks (R279). -/
def evalTick : Nat := 1250000

def State.modGrid (s : State) (f : Grid → Grid) : State := { s with grid := f s.grid }
def State.gfuOwner (s : State) : Option (Fin 8) := s.owner R.GF_CTRL_OWNER
def State.gfuOn (s : State) : Bool := s.flag R.GF_CTRL_EN
def State.action (s : State) : Nat := s.get R.GF_STATUS_ACTION

/-- A U8.24 setting as S40.32. -/
def u824 (x : Nat) : Nat := x * 256

/-- Posts to F0, to the GFU owner and to each easel with wheel access (R296). -/
def State.postGrid (s : State) (code : Nat) (args : List (BitVec 64)) : State :=
  forAll 8 (fun e s => if s.wheelAccess e || s.gfuOwner == some e then s.postEasel e code args else s) (s.postF0 code args)

/-! ## Words made real (R280) -/

/-- The words of a commit of easel `e` that the owners of the GFU and of the strings make real. -/
def State.gridCommit (s : State) (e : Fin 8) (ws : List (Nat × Word)) : State :=
  let val (a : Nat) : Option Word := (ws.find? fun p => p.1 == a).map Prod.snd
  let has (a : Nat) : Bool := (val a).isSome
  let nat (a : Nat) (old : Nat) : Nat := match val a with
    | some w => w.toNat
    | none => old
  let int (a : Nat) (old : Int) : Int := match val a with
    | some w => w.toNat
    | none => old
  let s := if s.gfuOwner = some e then s.modGrid fun g =>
      { g with v := Vector.ofFn fun i => nat (0x243C0 + i.val) g.v[i], tapV := int 0x243C3 g.tapV, tapI := int 0x243C4 g.tapI,
               freshV := g.freshV || (has 0x243C0 && has 0x243C1 && has 0x243C2),
               freshTap := g.freshTap || (has 0x243C3 && has 0x243C4) }
    else s
  forAll 8 (fun k s =>
    if s.owner (R.MP_CTRL_OWNER k) = some e then s.modGrid fun g =>
      { g with mv := upd g.mv k (nat (0x243C8 + k.val)), mi := upd g.mi k (nat (0x243D0 + k.val)),
               freshS := if has (0x243C8 + k.val) && has (0x243D0 + k.val) then g.freshS ||| BitVec.ofNat 8 (2 ^ k.val) else g.freshS,
               strings := upd g.strings k fun x => { x with pcap := match val (0x243D8 + k.val) with
                 | some w => some w.toNat
                 | none => x.pcap } }
    else s) s

/-! ## Reference synthesis (R281, R282, R287) -/

/-- θ_drift (R287). -/
def State.drift (s : State) : Int :=
  let m : Int := s.get R.GF_DRIFT_DRIFT_MAX * 65536
  clampInt ((BitVec.ofNat 16 (s.get R.GF_DRIFT_DRIFT_K)).toInt * ((s.freq : Int) - s.get R.WHL_FNOM_FNOM)) (-m) m

/-- θ_ref of easel `e` (R281). -/
def State.thetaRef (s : State) (e : Fin 8) : BitVec 32 :=
  let lead := (BitVec.ofNat 24 (s.get (R.REF_CTRL_LEAD e))).toInt
  let d := if s.flag (R.REF_CTRL_DRIFT e) then s.drift else 0
  BitVec.ofInt 32 (s.angle + roundDiv (s.freq * (s.get (R.DB_PERIOD_PERIOD e) + lead)) 32000 + d)

/-- φ_m (R282). -/
def phi (m : Nat) : BitVec 32 := if m = 0 then 0 else if m = 1 then 0x55555555 else 0xAAAAAAAB

/-- A product as formed by MULS32. -/
def muls32 (x y : Word) : Word := sat40 (roundDiv (x.toInt * y.toInt) (2 ^ 32))

/-- Z_EST and E_EST in use (R291). -/
def State.zEst (s : State) : Word := if s.get R.GF_STATUS_EST = 2 then BitVec.ofNat 40 (u824 (s.get R.GF_ZFACT_ZFACT)) else s.grid.z
def State.eEst (s : State) : Word := if s.get R.GF_STATUS_EST = 2 then BitVec.ofNat 40 (u824 (s.get R.GF_EFACT_EFACT)) else s.grid.e

/-- The grid words of an easel at release (R282, R294). -/
def State.gridSysin (s : State) (e : Fin 8) : List (Nat × TWord) :=
  let th := s.thetaRef e
  let k := s.scaleWord e
  let off := decide (s.action ≥ 2)
  let gate (w : Word) : TWord := ⟨if off then 0 else w, false⟩
  let est := s.get R.GF_STATUS_EST
  let flags := s.action + 4 * s.get R.GF_STATUS_TRIPPED + 8 * s.get R.GF_STATUS_ISLANDED + (if est = 1 then 16 else 0)
    + (if est = 2 then 32 else 0) + 64 * s.get R.GF_STATUS_TAP_BUSY
  let refs := if s.wheelAccess e then
      (0x24220, TWord.mk (th.setWidth 40) false) ::
        ((List.range 3).map fun m => (0x24221 + m, gate (muls32 k (sinWord (th - phi m)))))
        ++ ((List.range 3).map fun m => (0x24224 + m, gate (muls32 k (cosWord (th - phi m)))))
        ++ [(0x24227, gate (BitVec.ofInt 40 s.grid.tapRef)), (0x24228, TWord.mk (BitVec.ofNat 40 flags) false),
            (0x24229, TWord.mk s.zEst false), (0x2422A, TWord.mk s.eEst false)]
    else (List.range 11).map fun i => (0x24220 + i, TWord.mk vacantWord true)
  refs ++ (fins 8).map fun (k : Fin 8) =>
    (0x24230 + k.val, if s.owner (R.MP_CTRL_OWNER k) = some e then TWord.mk s.grid.strings[k].vref false
                      else TWord.mk vacantWord true)

/-! ## Ride-through (R283, R284) -/

def State.vMin (s : State) : Nat := min s.grid.v[0] (min s.grid.v[1] s.grid.v[2])
def State.vMax (s : State) : Nat := max s.grid.v[0] (max s.grid.v[1] s.grid.v[2])

/-- Point `k`: 0 to 7 voltage, 8 to 15 frequency. Its ACT, T and SIDE (1: OVER). -/
def State.pointAct (s : State) (k : Fin 16) : Nat := if k.val < 8 then s.get (R.RTV_CFG_ACT k) else s.get (R.RTF_CFG_ACT (k - 8))
def State.pointT (s : State) (k : Fin 16) : Nat := if k.val < 8 then s.get (R.RTV_CFG_T k) else s.get (R.RTF_CFG_T (k - 8))
def State.pointOver (s : State) (k : Fin 16) : Bool :=
  if k.val < 8 then s.flag (R.RTV_CFG_SIDE k) else s.flag (R.RTF_CFG_SIDE (k - 8))

/-- The tested value, the level and the hysteresis of a point. -/
def State.pointX (s : State) (k : Fin 16) : Nat :=
  if k.val < 8 then (if s.pointOver k then s.vMax else s.vMin) else s.freq
def State.pointLvl (s : State) (k : Fin 16) : Nat := if k.val < 8 then u824 (s.get (R.RTV_LVL_LVL k)) else s.get (R.RTF_LVL_LVL (k - 8))
def State.pointHys (s : State) (k : Fin 16) : Nat := if k.val < 8 then u824 (s.get R.GF_VHYS_V_HYS) else s.get R.GF_FHYS_F_HYS

/-- The 24-bit timers of the points. -/
def timerTop : Nat := 2 ^ 24 - 1

/-- Does the timer of a frequency point hold in the present wheel state (R283)? -/
def State.freqHeld (s : State) : Bool := s.whl == whlIdle || s.whl == whlAcquire || s.whl == whlCoast || s.whl == whlFail

/-- The timer of a point after this tick (R283). -/
def State.pointTimer (s : State) (k : Fin 16) : Nat :=
  let t := s.grid.timers[k]
  let x := s.pointX k
  let lvl := s.pointLvl k
  let hys := s.pointHys k
  if s.pointAct k = 0 then t
  else if k.val ≥ 8 ∧ s.freqHeld = true then t
  else if (if s.pointOver k then decide (x > lvl) else decide (x < lvl)) then min timerTop (t + 1)
  else if (if s.pointOver k then decide (x + hys < lvl) else decide (x > lvl + hys)) then 0
  else t

/-- Is point `k` asserted? -/
def State.asserted (s : State) (k : Fin 16) : Bool :=
  s.pointAct k != 0 && decide (0 < s.grid.timers[k]) && decide (s.pointT k ≤ s.grid.timers[k])

/-- The most severe action among the asserted points. -/
def State.worstAction (s : State) : Nat := (fins 16).foldl (fun m k => if s.asserted k then max m (s.pointAct k) else m) 0

/-- Does the measurement age trip? -/
def State.ageTrips (s : State) : Bool :=
  s.gfuOn && s.flag R.GF_CTRL_MEAS_TRIP && decide (s.get R.GF_MEAS_AGE_NOW > s.get R.GF_MEAS_MEAS_AGE)

/-- Sets TRIPPED; a setting counts. -/
def State.setTripped (s : State) : State :=
  if s.flag R.GF_STATUS_TRIPPED then s else (s.setFlag R.GF_STATUS_TRIPPED true).bumpS R.GF_STATUS_TRIP_CNT

/-- Cause and tested value of RT_ACTION: the lowest asserted point of the new action, the measurement age, or the end of what
held a worse action. -/
def State.actionCause (s : State) (new old : Nat) : List (BitVec 64) :=
  if new < old then [0xFF, 0]
  else match (fins 16).find? fun k => s.asserted k && s.pointAct k == new with
    | some k => [arg k.val, arg (s.pointX k)]
    | none => [0xFE, arg (s.get R.GF_MEAS_AGE_NOW)]

/-- ACTION takes its value (R284). -/
def State.takeAction (s : State) : State :=
  let old := s.action
  let new := if s.flag R.GF_STATUS_TRIPPED then 3 else s.worstAction
  if new = old then s else (s.set R.GF_STATUS_ACTION new).postGrid 0x500 (arg new :: s.actionCause new old)

/-- What asserted points, the measurement age and TRIP_CLR (`clr`: it was written) do (R284). -/
def State.rideThrough (s : State) (clr : Bool) : State :=
  let trips := s.worstAction == 3 || s.ageTrips
  let s := if clr && !trips then s.setFlag R.GF_STATUS_TRIPPED false else s
  (if trips then s.setTripped else s).takeAction

/-! ## Islanding (R286 to R288) -/

/-- A detection by test `t` with the value that detected (R288). What ARG1 and ARG2 of RT_ACTION hold for a trip by islanding
is open. -/
def State.detect (s : State) (t : Nat) (v : BitVec 64) : State :=
  if s.gfuOn && s.bit R.GF_CTRL_TEST_EN t then
    let s := (s.setFlag R.GF_STATUS_ISLANDED true).setBit R.GF_STATUS_ISL_TEST t true
    let s := s.postGrid 0x501 [arg t, v]
    if s.flag R.GF_CTRL_ISL_TRIP then
      let s := s.setTripped
      if s.action = 3 then s
      else
        let x := arg (Config.freeNat s.freeCount)
        let y := arg (Config.freeNat (s.freeCount + 1))
        ({ s with freeCount := s.freeCount + 2 }.set R.GF_STATUS_ACTION 3).postGrid 0x500 [3, x, y]
    else s
  else s

/-- ROCOF (R286). -/
def State.rocof (s : State) : State :=
  let n := s.grid.rocofTick + 1
  if n < s.get R.GF_ROCOF_ROCOF_W then s.modGrid fun g => { g with rocofTick := n }
  else if s.whl = whlLocked then
    let f := s.freq
    let d := match s.grid.rocofRef with
      | some r => ((f : Int) - r).natAbs
      | none => 0
    let c := if d > s.get R.GF_ROCOF_ROCOF_LIM then s.grid.rocofCnt + 1 else 0
    let s := s.modGrid fun g => { g with rocofTick := 0, rocofRef := some f, rocofCnt := c }
    if c ≥ s.get R.GF_ROCOF_ROCOF_K ∧ 0 < c then s.detect 0 (arg d) else s
  else s.modGrid fun g => { g with rocofTick := 0, rocofRef := none, rocofCnt := 0 }

/-- The value that WINDOW finds outside, if any (R286). -/
def State.windowOut (s : State) : Option Nat :=
  if s.vMin < u824 (s.get R.GF_VWLO_VW_LO) then some s.vMin
  else if s.vMax > u824 (s.get R.GF_VWHI_VW_HI) then some s.vMax
  else if (s.freq < s.get R.GF_FWLO_FW_LO ∨ s.get R.GF_FWHI_FW_HI < s.freq)
    ∧ (s.whl = whlLocked ∨ (whlLimpBlend ≤ s.whl ∧ s.whl ≤ whlPriBlend)) then some s.freq
  else none

/-- WINDOW (R286). -/
def State.window (s : State) : State :=
  match s.windowOut with
  | some v =>
    let s := s.modGrid fun g => { g with winCnt := g.winCnt + 1 }
    if s.grid.winCnt ≥ s.get R.GF_WINT_WIN_T then s.detect 2 (arg v) else s
  | none => s.modGrid fun g => { g with winCnt := 0 }

/-- VS, at a PHASE_CORR made real by the wheel owner (R286). -/
def State.vectorShift (s : State) (c : Word) : State :=
  if (s.whl = whlLocked ∨ s.whl = whlCoast) ∧ c.toInt.natAbs > s.get R.GF_VS_VS_LIM * 65536 then s.detect 1 (fill64 c) else s

/-- ISL_CLR acts at a tick. -/
def State.islClear (s : State) : State :=
  if s.grid.islClr then (s.setFlag R.GF_STATUS_ISLANDED false).set R.GF_STATUS_ISL_TEST 0 else s

/-! ## Estimator (R290, R291) -/

/-- The estimator changes its state. -/
def State.estEnter (s : State) (st : Nat) : State :=
  let old := s.get R.GF_STATUS_EST
  let s := (s.set R.GF_STATUS_EST st).modGrid fun g => { g with estAt := s.age }
  if st = old then s else s.postGrid 0x502 [arg st, fill64 s.zEst, fill64 s.eEst]

/-- A quotient rounded under R86; its value at a zero divisor is open. -/
def quotient (n d : Int) : Int := if d = 0 then Config.divByZero n else if d < 0 then roundDiv (-n) d.natAbs else roundDiv n d.natAbs

/-- The end of POST: the point, if it is valid (R290). -/
def State.tapPoint (s : State) (x : Tap) (len : Nat) : State :=
  let v (i : Fin 4) := roundDiv x.sumV[i] len
  let c (i : Fin 4) := roundDiv x.sumI[i] len
  if (c 1 - c 2).natAbs ≥ u824 (s.get R.GF_DI_MIN_DI_MIN) ∧ (v 3 - v 0).natAbs ≤ u824 (s.get R.GF_REST_V_REST_V)
    ∧ (c 3 - c 0).natAbs ≤ u824 (s.get R.GF_REST_I_REST_I) then
    let z := sat40 (quotient ((v 1 - v 2) * 2 ^ 32) (c 1 - c 2))
    let e := sat40 (roundDiv (v 0 + v 3) 2 - roundDiv (z.toInt * roundDiv (c 0 + c 3) 2) (2 ^ 32))
    let s := (s.modGrid fun g => { g with z := z, e := e }).estEnter 0
    if z.toInt > u824 (s.get R.GF_ZI_LIM_ZI_LIM) then s.detect 3 (fill64 z) else s
  else s

/-- The estimator has had no valid point for STARVE_T, or in STARVED for STALE_T (R291). -/
def State.estTimers (s : State) : State :=
  let st := s.get R.GF_STATUS_EST
  if st = 0 ∧ s.age ≥ s.grid.estAt + s.get R.GF_STARVE_STARVE_T * ms10 then s.estEnter 1
  else if st = 1 ∧ s.age ≥ s.grid.estAt + s.get R.GF_STARVE_STALE_T * ms10 then s.estEnter 2
  else s

/-! ## Taps (R289) -/

def State.tapL (s : State) : Nat := s.get R.GF_TAP_TAP_LEN_M1 + 1

/-- Settling ticks and all ticks of a tap phase. -/
def State.tapSettle (s : State) (p : Nat) : Nat := if p = 1 ∨ p = 2 then s.get R.GF_TAP_TAP_SETTLE else 0
def State.tapTicks (s : State) (p : Nat) : Nat := s.tapSettle p + s.tapL

/-- TAP_REF of a phase. -/
def State.tapRefOf (s : State) (p : Nat) : Int :=
  let a : Int := u824 (s.get R.GF_TAPAMP_TAPAMP)
  if p = 1 then a else if p = 2 then -a else 0

/-- Changes the tap in progress. -/
def State.modTap (s : State) (f : Tap → Tap) : State := s.modGrid fun g => { g with tap := g.tap.map f }

/-- Phase `p` of a tap starts at an age. -/
def State.tapPhase (s : State) (p at_ : Nat) : State :=
  s.modTap fun x => { x with phase := p, tick := 0, avgFrom := at_ + s.tapSettle p * evalTick, avgLen := (s.tapL - 1) * evalTick }

/-- May a tap start at this tick (R289)? -/
def State.mayTap (s : State) : Bool :=
  s.grid.tap.isNone && s.gfuOn && s.flag R.GF_CTRL_TAP_EN && s.whl == whlLocked && s.action == 0
    && (s.grid.tapNow || (s.get R.GF_TAP_TAP_INT != 0
      && decide (s.age ≥ s.grid.tapStart + s.get R.GF_TAP_TAP_INT * ms10)))

/-- A tap starts; the low-range gain estimators follow it (R304). -/
def State.tapBegin (s : State) : State :=
  let s := (s.modGrid fun g => { g with tap := some {}, tapStart := s.age, tapNow := false }).tapPhase 0 s.age
  (s.setFlag R.GF_STATUS_TAP_BUSY true).mtrTapStart

/-- The tap ends without a point. -/
def State.tapDrop (s : State) : State :=
  ((s.modGrid fun g => { g with tap := none }).setFlag R.GF_STATUS_TAP_BUSY false).mtrTapDrop

/-- Why a tap is abandoned at this tick, if it is (R289). -/
def State.tapFails (s : State) : Option Nat :=
  if !s.grid.freshTap then some 0 else if s.action ≠ 0 then some 1 else if s.whl ≠ whlLocked then some 2 else none

/-- A tap is abandoned. -/
def State.tapAbandon (s : State) (cause : Nat) : State :=
  let s := s.tapDrop.bumpS R.GF_STATUS_TAP_ABN_CNT
  let s := s.postF0 0x503 [0, arg cause]
  match s.gfuOwner with
  | some e => s.postEasel e 0x503 [0, arg cause]
  | none => s

/-- The phase in progress has had all its ticks: the next one, or the end of the tap (R289, R290). -/
def State.tapPhaseEnd (s : State) : State :=
  match s.grid.tap with
  | some x =>
    if x.tick < s.tapTicks x.phase then s
    else if x.phase < 3 then s.tapPhase (x.phase + 1) (s.age + evalTick)
    else
      let s := (s.modGrid fun g => { g with tap := none }).setFlag R.GF_STATUS_TAP_BUSY false
      (s.tapPoint x s.tapL).mtrTapEnd
  | none => s

/-- One tick of the tap in progress: TAP_REF, abandonment, the sample. -/
def State.tapTick (s : State) : State :=
  match s.grid.tap with
  | some x =>
    match s.tapFails with
    | some c => s.tapAbandon c
    | none =>
      let p : Fin 4 := ⟨x.phase % 4, Nat.mod_lt _ (by decide)⟩
      let s := s.modGrid fun g => { g with tapRef := s.tapRefOf x.phase }
      let s := s.modTap fun y =>
        if x.tick ≥ s.tapSettle x.phase then
          { y with tick := x.tick + 1, sumV := upd y.sumV p fun a => a + s.grid.tapV, sumI := upd y.sumI p fun a => a + s.grid.tapI }
        else { y with tick := x.tick + 1 }
      s.tapPhaseEnd
  | none => s.modGrid fun g => { g with tapRef := 0 }

/-! ## MPPT (R292 to R294) -/

def State.string (s : State) (k : Fin 8) : MpptString := s.grid.strings[k]
def State.modString (s : State) (k : Fin 8) (f : MpptString → MpptString) : State :=
  s.modGrid fun g => { g with strings := upd g.strings k f }

/-- Shows V_REF. -/
def State.setVref (s : State) (k : Fin 8) (v : Nat) : State :=
  (s.modString k fun x => { x with vref := BitVec.ofNat 40 v }).set (R.MP_VREF_VREF k) (v / 256)

/-- A string restarts (R294). -/
def State.mpRestart (s : State) (k : Fin 8) : State :=
  let s := s.modString k fun x => { x with tick := 0, sumV := 0, sumI := 0, fresh := false, stopped := false, prev := none }
  (s.setVref k (u824 (s.get (R.MP_VSTART_VSTART k)))).setFlag (R.MP_CTRL_DIR k) true

/-- Moves V_REF by STEP, up or down, or holds it, within VMIN and VMAX. -/
def State.mpMove (s : State) (k : Fin 8) (up : Option Bool) : State :=
  let v : Int := s.grid.strings[k].vref.toNat
  let d : Int := u824 (s.get (R.MP_STEP_STEP k))
  let v := match up with
    | some true => v + d
    | some false => v - d
    | none => v
  s.setVref k (clampInt v (u824 (s.get (R.MP_VMIN_VMIN k))) (u824 (s.get (R.MP_VMAX_VMAX k)))).toNat

/-- The move that ALG decides against the last valid step (R293). -/
def State.mpDecide (s : State) (k : Fin 8) (v c p : Int) (prev : Int × Int × Int) : State :=
  let tol : Int := s.get (R.MP_TOL_TOL k)
  let dv := v - prev.1
  let di := c - prev.2.1
  if s.flag (R.MP_CTRL_ALG k) = false then
    let s := if p - prev.2.2 < -(tol * 256) then s.setFlag (R.MP_CTRL_DIR k) (!s.flag (R.MP_CTRL_DIR k)) else s
    s.mpMove k (some (s.flag (R.MP_CTRL_DIR k)))
  else if dv ≠ 0 then
    let d := c * dv + v * di
    s.mpMove k (if (d.natAbs : Int) ≤ tol * 2 ^ 40 then none else some (decide (0 < d) == decide (0 < dv)))
  else s.mpMove k (if (di.natAbs : Int) ≤ tol * 256 then none else some (decide (0 < di)))

/-- The end of a step of string `k`: averages over the ticks summed; a step is skipped that no tick saw refreshed, or in which
the owner had RUN = 0 at some tick (R292, R293, log entry 118). -/
def State.mpStepEnd (s : State) (k : Fin 8) : State :=
  let x := s.string k
  let s := s.modString k fun x => { x with tick := 0, sumV := 0, sumI := 0, fresh := false, stopped := false }
  if !x.fresh || x.stopped then
    let s := s.bumpS (R.MP_SKIP_SKIP_CNT k)
    match s.owner (R.MP_CTRL_OWNER k) with
    | some e => s.postEasel e 0x504 [arg k.val, arg (s.get (R.MP_SKIP_SKIP_CNT k))]
    | none => s
  else
    let v := roundDiv x.sumV x.tick
    let c := roundDiv x.sumI x.tick
    let p := roundDiv (v * c) (2 ^ 32)
    let capped := match x.pcap with
      | some cap => decide (p > cap)
      | none => false
    let s := s.setFlag (R.MP_CTRL_CURTAIL k) capped
    let s := if capped then s.mpMove k (some true)
      else match x.prev with
        | some q => s.mpDecide k v c p q
        | none => s.mpMove k (some true)
    s.modString k fun x => { x with prev := some (v, c, p) }

/-- Is the step of string `k` complete? -/
def State.mpFull (s : State) (k : Fin 8) : Bool :=
  s.flag (R.MP_CTRL_EN k) && decide (s.get (R.MP_CTRL_MSTEP_T k) ≤ (s.string k).tick) && decide (0 < (s.string k).tick)

/-- One tick of string `k` (R292). -/
def State.mpTick (s : State) (k : Fin 8) : State :=
  match s.owner (R.MP_CTRL_OWNER k) with
  | some e =>
    if s.flag (R.MP_CTRL_EN k) then
      let s := s.modString k fun x =>
        { x with tick := x.tick + 1, sumV := x.sumV + s.grid.mv[k], sumI := x.sumI + s.grid.mi[k],
                 fresh := x.fresh || s.grid.freshS.getLsbD k.val, stopped := x.stopped || !s.run e }
      if s.mpFull k then s.mpStepEnd k else s
    else s
  | none => s

/-! ## The evaluation tick (R279) -/

/-- The events of the class S timers that reach their largest value at this tick (R7, R283). A timer has no register: ARG0 is
open (log entry 119). -/
def State.timerEvents (s : State) (old : Vector Nat 16) : State :=
  forAll 16 (fun k s => if old[k] < timerTop ∧ s.grid.timers[k] = timerTop then
    s.draw.postF0 0x51 [arg (Config.freeNat s.freeCount), 1] else s) s

/-- Measurement age and points, while the GFU is enabled. -/
def State.measure (s : State) : State :=
  if s.gfuOn then
    let s := s.set R.GF_MEAS_AGE_NOW (if s.grid.freshV then 0 else min 0xFFFF (s.get R.GF_MEAS_AGE_NOW + 1))
    (s.modGrid fun g => { g with timers := Vector.ofFn fun k => s.pointTimer k }).timerEvents s.grid.timers
  else s

/-- Everything that one evaluation tick does, in the order of R279. -/
def State.gridEval (s : State) : State :=
  let s := ((s.measure.rideThrough s.grid.tripClr)).islClear
  let s := if s.gfuOn then s.rocof.window else s
  let s := s.modGrid fun g => { g with tripClr := false, islClr := false }
  let s := if s.mayTap then s.tapBegin else s
  let s := s.tapTick
  let s := s.modGrid fun g => { g with tapNow := false }
  let s := if s.gfuOn then s.estTimers else s
  let s := forAll 8 (fun k s => s.mpTick k) s
  s.modGrid fun g => { g with freshV := false, freshTap := false, freshS := 0, evalAt := some s.age }

/-- The next evaluation tick that is still to be done. -/
def State.toTick (s : State) : State := (if s.grid.evalAt = some s.age then s.elapse 1 else s).reachMultiple evalTick

/-- R279: an evaluation tick. -/
def execEvaluationTick (s : State) : Host.Outcome State Fault Refusal :=
  if s.sup.inReset then .next s
  else .next s.toTick.gridEval

/-- R283: a point is asserted, and ACTION follows. -/
def execPointAsserted (k : Fin 16) (s : State) : Host.Outcome State Fault Refusal :=
  if s.asserted k then .next (s.rideThrough false) else .next s

/-- R284: the measurement age exceeds MEAS_AGE. -/
def execMeasAgeTrip (s : State) : Host.Outcome State Fault Refusal :=
  if s.ageTrips then .next (s.rideThrough false) else .next s

/-- R289: a tap starts, at an evaluation tick. -/
def execTapStart (s : State) : Host.Outcome State Fault Refusal :=
  if !s.sup.inReset && s.toTick.mayTap then .next s.toTick.tapBegin else .next s

/-- R289, R290: a tap phase ends. -/
def execTapPhaseEnd (s : State) : Host.Outcome State Fault Refusal := .next s.tapPhaseEnd

/-- R291: no valid point for STARVE_T. -/
def execEstStarve (s : State) : Host.Outcome State Fault Refusal :=
  if s.gfuOn && s.get R.GF_STATUS_EST == 0 then
    .next ((s.reachAge (s.grid.estAt + s.get R.GF_STARVE_STARVE_T * ms10)).estTimers)
  else .next s

/-- R291: no valid point for STALE_T in STARVED. -/
def execEstStale (s : State) : Host.Outcome State Fault Refusal :=
  if s.gfuOn && s.get R.GF_STATUS_EST == 1 then
    .next ((s.reachAge (s.grid.estAt + s.get R.GF_STARVE_STALE_T * ms10)).estTimers)
  else .next s

/-- R292: a step of a string ends. -/
def execMpptStep (k : Fin 8) (s : State) : Host.Outcome State Fault Refusal :=
  if s.mpFull k then .next (s.mpStepEnd k) else .next s

/-- GF_CTRL.EN takes a value (R291, R297). TAP_REF follows at the next tick (R289). -/
def State.setGfEn (s : State) (on : Bool) : State :=
  if on = s.flag R.GF_CTRL_EN then s
  else
    let s := s.setFlag R.GF_CTRL_EN on
    let s := s.modGrid fun g =>
      { g with timers := Vector.replicate 16 0, rocofTick := 0, rocofRef := none, rocofCnt := 0, winCnt := 0, tapStart := s.age }
    let s := s.set R.GF_MEAS_AGE_NOW 0
    if on then s.estEnter 2
    else (if s.grid.tap.isSome then ((s.set R.GF_STATUS_TRIP_CNT 0).set R.GF_STATUS_TAP_ABN_CNT 0).tapDrop
      else (s.set R.GF_STATUS_TRIP_CNT 0).set R.GF_STATUS_TAP_ABN_CNT 0).takeAction

/-- R297: a write of GF_CTRL.EN. -/
def execGfEn (a : Agent) (on : Bool) (s : State) : Host.Outcome State Fault Refusal :=
  if s.mayEnable a 7 R.GF_CTRL_EN on then .next (s.setGfEn on) else .next s

/-- R289: a write of TAP_NOW = 1 requests a tap at the next tick. -/
def execTapNow (a : Agent) (s : State) : Host.Outcome State Fault Refusal :=
  if s.reaches a then .next (s.modGrid fun g => { g with tapNow := true }) else .next s

/-- R284: a write of TRIP_CLR = 1, which acts at the next tick. -/
def execTripClr (a : Agent) (s : State) : Host.Outcome State Fault Refusal :=
  if s.reaches a then .next (s.modGrid fun g => { g with tripClr := true }) else .next s

/-- R288: a write of ISL_CLR = 1, which acts at the next tick. -/
def execIslClr (a : Agent) (s : State) : Host.Outcome State Fault Refusal :=
  if s.reaches a then .next (s.modGrid fun g => { g with islClr := true }) else .next s

/-- MP_CTRL.EN takes a value (R294). -/
def State.setMpEn (s : State) (k : Fin 8) (on : Bool) : State :=
  let was := s.flag (R.MP_CTRL_EN k)
  let s := s.setFlag (R.MP_CTRL_EN k) on
  if on && !was then (s.modString k fun x => { x with pcap := none }).mpRestart k else s

/-- R292: a write of MP_CTRL.EN. -/
def execMpEn (k : Fin 8) (a : Agent) (on : Bool) (s : State) : Host.Outcome State Fault Refusal :=
  if s.mayEnable a 7 (R.MP_CTRL_EN k) on then .next (s.setMpEn k on) else .next s

end Sys2Proof.Machine
end

