-- ==== Sys2Proof/Machine/Operands.lean ====
section
/-! DEFINITION. Operand reads and writes of a slot: regions, written bits, ownership, vacancy and taint (R91 to R94, R102). -/

namespace Sys2Proof.Machine

/-- Is an owner field equal to easel `e`? -/
def State.owns (s : State) (f : Fld) (e : Fin 8) : Bool := s.owner f == some e

/-- Does the OUTS word at `a` belong to easel `e` (R92)? -/
def State.ownsOuts (s : State) (e : Fin 8) (a : Nat) : Bool :=
  if a < 0x24380 then s.owns (R.OWN_CMP ((a - 0x24300) / 2)) e
  else if a ≤ 0x24382 then s.ownerWheel == some e
  else if a = 0x2438F then s.wheelAccess e
  else if within a 0x24390 0x24393 then s.owns (R.OWN_FAN (a - 0x24390)) e
  else if a = 0x24394 then (List.range 8).any fun i => s.owns (R.OWN_COIL i) e
  else if a = 0x24395 then s.owns R.OWN_AUX0_DISCHG e
  else if within a 0x243B0 0x243B3 then true
  else if within a 0x243C0 0x243C4 then s.owns R.GF_CTRL_OWNER e
  else if within a 0x243C8 0x243DF then s.owns (R.MP_CTRL_OWNER ((a - 0x243C8) % 8)) e
  else false

/-- Does the committable word at `a`, a DUTY or OUTS word, belong to easel `e` (R92)? -/
def State.ownsWord (s : State) (e : Fin 8) (a : Nat) : Bool :=
  if within a dutyBase 0x2413F then s.owns (R.OWN_LEG (a - dutyBase)) e else s.ownsOuts e a

/-- The written value of a committable word, if its written bit is set (R94). -/
def Easel.written (z : Easel) (a : Nat) : Option TWord := (z.shadow.find? fun p => p.1 == a).map Prod.snd

/-- The value that a read of a vacant word returns (R102). -/
def vacantRead : TWord := ⟨vacantWord, true⟩

/-- The committed value of a DUTY or OUTS word (R94). -/
def State.committed (s : State) (e : Fin 8) (a : Nat) : Word :=
  if h : dutyBase ≤ a ∧ a < dutyBase + 64 then (s.legs[a - dutyBase]'(by omega)).pending
  else Cells.get 0 a (s.ez e).outs

/-- A slot of easel `e` reads the operand at `a`. -/
def State.readOp (s : State) (e : Fin 8) (a : Nat) : TWord × State :=
  if a < shadowBase then s.readMem e a
  else if a < scratchBase then match (s.ez e).written a with
    | some w => (w, s)
    | none => s.readMem e (a - 0x1000)
  else if a < 0x24080 then s.readMem e a
  else if within a sysinBase 0x242FF then (Cells.get ⟨0, false⟩ a (s.ez e).sysin, s)
  else if s.ownsWord e a then match (s.ez e).written a with
    | some w => (w, s)
    | none => (⟨s.committed e a, false⟩, s)
  else (vacantRead, s)

/-- Enters a written value in ascending order of address. -/
def shadowPut (a : Nat) (w : TWord) (l : List (Nat × TWord)) : List (Nat × TWord) := Cells.insert a w (Cells.erase a l)

/-- A slot of easel `e` writes the operand at `a`; a word of a resource that the easel does not own takes nothing (R92). -/
def State.writeOp (s : State) (e : Fin 8) (a : Nat) (w : TWord) : State :=
  if within a scratchBase 0x2403F then s.writeMem e a w
  else if within a shadowBase 0x21FFF || s.ownsWord e a then s.modEz e fun z => { z with shadow := shadowPut a w z.shadow }
  else s

/-- Sets the SAT mark of the pass (R87). -/
def State.markSat (s : State) (e : Fin 8) (b : Bool) : State :=
  if b then s.modPass e fun p => { p with sat := true } else s

/-- Reads operand A with its modifier: MOD = 1 takes sat(−A) (R89). -/
def State.readA (s : State) (e : Fin 8) (w : Slot) : TWord × State :=
  let (x, s) := s.readOp e w.a
  if w.md = 1 then (⟨sat40 (-x.val.toInt), x.taint⟩, s.markSat e (saturates 40 (-x.val.toInt))) else (x, s)

/-- Writes a result that saturates to 40 bits (R87). -/
def State.writeSat (s : State) (e : Fin 8) (a : Nat) (x : Int) (taint : Bool) : State :=
  (s.markSat e (saturates 40 x)).writeOp e a ⟨sat40 x, taint⟩

end Sys2Proof.Machine
end

