-- ==== Sys2Proof/Machine/Drive.lean ====
section
/-! DEFINITION. Events of a leg: update positions, edges of the drive signal, dead time, release (R237 to R239, R249). -/

namespace Sys2Proof.Machine

/-- The first age at or after `from_` at which the carrier phase of leg `l` is `p`. -/
def State.posAt (s : State) (l : Fin 64) (p from_ : Nat) : Nat :=
  from_ + ticksFrom (s.timeAt from_) (s.phaseAt l p (s.timeAt from_))

/-- The next update position of leg `l` at or after `from_` (R238). -/
def State.updateAt (s : State) (l : Fin 64) (from_ : Nat) : Nat :=
  let start := s.posAt l 0 from_
  let mid := s.posAt l (s.period l / 2) from_
  match s.get (R.LEG_CFG_UPD l) with
  | 0 => start
  | 1 => mid
  | _ => min start mid

/-- What the active register takes now: a value committed less than 40 ns ago waits for the next position (R28). -/
def State.updateValue (s : State) (l : Fin 64) : Word :=
  let g := s.leg l
  match g.commitAt with
  | some t => if s.age < t + 500 then g.before else g.pending
  | none => g.pending

/-- R238: an update position. -/
def execUpdatePosition (l : Fin 64) (s : State) : Host.Outcome State Fault Refusal :=
  let from_ := match (s.leg l).lastUpd with
    | some t => max s.age (t + 1)
    | none => s.age
  let s := s.reachAge (s.updateAt l from_)
  .next ((s.modLeg l fun g => { g with active := s.updateValue l, lastUpd := some s.age }).takeX l)

/-- The next age, after the present instant, at which the phase crosses a bound of the high interval; none without edges. -/
def State.edgeAt (s : State) (l : Fin 64) : Option Nat :=
  let iv := s.interval l (s.leg l).active
  let p := s.period l
  if iv.2 = 0 ∨ p ≤ iv.2 then none
  else some (min (s.posAt l (iv.1 % p) (s.age + 1)) (s.posAt l ((iv.1 + iv.2) % p) (s.age + 1)))

/-- R237: an edge of the drive signal: the one that a change has made due, else the next bound of the high interval. -/
def execDriveEdge (l : Fin 64) (s : State) : Host.Outcome State Fault Refusal :=
  if s.drive l s.time ≠ s.flag (R.LEG_STATUS_X l) then .next (s.takeX l)
  else match s.edgeAt l with
    | some t => .next ((s.reachAge t).takeX l)
    | none => .next s

/-- R239: X has held for its dead time, or the interlock has passed, and the pin rises; not where an edge of X comes first. -/
def execDeadTimeElapsed (l : Fin 64) (s : State) : Host.Outcome State Fault Refusal :=
  let d := s.pinsDue l
  let t := d.2.2
  let holds := s.drive l s.time == s.flag (R.LEG_STATUS_X l) && (match s.edgeAt l with
    | some e => decide (t ≤ s.age) || decide (t < e)
    | none => true)
  if s.flag (R.LEG_STATUS_CHOKED l) = false ∧ holds = true then
    let s := s.reachAge t
    .next (if s.flag (R.LEG_STATUS_CHOKED l) then s else s.setPins l d.1 d.2.1)
  else .next s

/-- No cause holds leg `l`, which is still choked. -/
def State.legFree (s : State) (l : Fin 64) : Bool := s.get (R.LEG_STATUS_CAUSE l) == 0 && s.flag (R.LEG_STATUS_CHOKED l)

/-- Leg `l` is released at this instant: both pins count as low from now (R249). -/
def State.releaseLeg (s : State) (l : Fin 64) : State :=
  let s := s.takeX l
  (s.setFlag (R.LEG_STATUS_CHOKED l) false).modLeg l fun g =>
    { g with xSince := s.age, lowSince := s.age, clearedAt := none }

/-- R249: the first START at least 40 ns after the last cause cleared. -/
def execLegRelease (l : Fin 64) (s : State) : Host.Outcome State Fault Refusal :=
  match (s.leg l).clearedAt with
  | some t =>
    if s.legFree l then
      let s := s.reachAge (s.posAt l 0 (max s.age (t + 500)))
      .next (if s.legFree l then s.releaseLeg l else s)
    else .next s
  | none => .next s

end Sys2Proof.Machine
end

