-- ==== Sys2Proof/Machine/Router.lean ====
section
/-! DEFINITION. Comparators, FLT balls, choke groups and the event router (Legs, Comparators, Event Router and Choke). -/

namespace Sys2Proof.Machine

/-! ## Raw outputs and FLT balls (R243, R246, R247) -/

/-- R243: the input of a comparator takes a new voltage; the raw outputs of every comparator that watches the input follow. -/
def execComparatorCrossing (c : Fin 64) (v : Int) (s : State) : Host.Outcome State Fault Refusal :=
  let i : Fin 48 := Fin.ofNat 48 (s.get (R.CMP_CFG_AIN c))
  .next (forAll 64 (fun d s => if Fin.ofNat 48 (s.get (R.CMP_CFG_AIN d)) = i then s.rawEval d else s)
    { s with ain := s.ain.set i.val v i.isLt })

/-- R247: a FLT ball is asserted. -/
def execFltAssert (l : Fin 64) (s : State) : Host.Outcome State Fault Refusal :=
  .next ((s.setFlag (R.LEG_STATUS_FLT_IN l) true).fltEval l)

/-- R246: a FLT ball is deasserted; its cause clears at the next coarse tick. -/
def execFltDeassert (l : Fin 64) (s : State) : Host.Outcome State Fault Refusal :=
  .next (((s.setFlag (R.LEG_STATUS_FLT_IN l) false).reachCoarse).fltClear l)

/-! ## Filtered outputs (R244, R245) -/

/-- The majority that FILT asks of the last samples. -/
def filtered (filt : Nat) (xs : List Bool) : Bool :=
  let ones (n : Nat) : Nat := ((xs.take n).filter id).length
  if filt = 0 then xs.headD false else if filt = 1 then decide (3 ≤ ones 5) else decide (5 ≤ ones 9)

/-- Is the comparator idle: upper code 4,095 and lower code 0? -/
def State.cmpIdle (s : State) (c : Fin 64) : Bool := s.get (R.CMP_THR_UPPER c) == 4095 && s.get (R.CMP_THR_LOWER c) == 0

/-- One coarse tick of comparator `c`. -/
def State.cmpSample (s : State) (c : Fin 64) : State :=
  let open_ := !s.blanked c
  let s := s.modCmp c fun x =>
    { x with above := ((open_ && s.flag (R.CMP_STATUS_RAW_ABOVE c)) :: x.above).take 9,
             below := ((open_ && s.flag (R.CMP_STATUS_RAW_BELOW c)) :: x.below).take 9 }
  let filt := s.get (R.CMP_CFG_FILT c)
  let set (s : State) (up dn : Bool) : State := (s.setFlag (R.CMP_STATUS_ABOVE c) up).setFlag (R.CMP_STATUS_BELOW c) dn
  if s.cmpIdle c then set s false false
  else if s.settling c then s
  else set s (filtered filt s.cmps[c].above) (filtered filt s.cmps[c].below)

/-! ## The router at a coarse tick (R251, R252) -/

/-- What every source reads. -/
def State.sources (s : State) : BitVec 256 :=
  BitVec.ofNat 256 ((List.range 256).foldl (fun m i => if s.source i then m + 2 ^ i else m) 0)

/-- The routes that fire, given what the sources read now. -/
def State.firing (s : State) (now : BitVec 256) : List (Fin 128) :=
  (fins 128).filter fun r =>
    let i := s.get (R.ROUTE_SRC r)
    s.flag (R.ROUTE_EN r) && !s.fails (0x8D00 + 4 * r.val) && now.getLsbD i && !(s.router.prev.getLsbD i && !s.router.rewritten.getLsbD r.val)

/-- The place of an action among those of one tick (R253): CHOKE, LATCH, TRIGGER, FORCE_LIMP, POST. -/
def actionRank (action : Nat) : Nat :=
  if action = 1 then 0 else if action = 2 then 1 else if action = 4 then 2 else if action = 5 then 3 else 4

/-- The routes that fire at one tick, in the order in which they act: by action, then by number (R253). -/
def State.routeOrder (s : State) (rs : List (Fin 128)) : List (Fin 128) :=
  (List.range 5).flatMap fun k => rs.filter fun r => actionRank (s.get (R.ROUTE_ACTION r)) == k

/-- The router samples its sources; a rising TSRCk arms a discharge trigger (R331). -/
def State.routeSample (s : State) : State :=
  let now := s.sources
  let rs := (s.firing now).filter fun (r : Fin 128) => decide (1 ≤ s.get (R.ROUTE_ACTION r)) && decide (s.get (R.ROUTE_ACTION r) ≤ 5)
  let rises (k : Fin 2) : Bool := s.ten k && now.getLsbD (s.tsrc k) && !s.router.prev.getLsbD (s.tsrc k)
  let trig := Vector.ofFn fun (k : Fin 2) => if rises k then some s.age else s.aux.trig[k]
  { s with router := { pulses := 0, prev := now, at_ := some s.age, rewritten := 0,
                       fired := s.router.fired ++ (s.routeOrder rs).map fun (r : Fin 128) => (r, s.time) },
           aux := { s.aux with trig := trig } }

/-- R245, R251: a coarse tick of the comparators and the router, with what else looks at its sources there: FLT causes
(R246), forced coils (R329), DONE of the discharge (R334). -/
def execComparatorSample (s : State) : Host.Outcome State Fault Refusal :=
  let s := match s.router.at_ with
    | some t => s.reachAge (s.coarseAt (max s.age (t + 1)))
    | none => s.reachCoarse
  let limp := s.flag (R.CMP_STATUS_ABOVE (s.get R.WHL_CTRL_LIMP_CMP))
  let s := (forAll 64 (fun c s => s.cmpSample c) s).seeEdge limp
  let s := forAll 64 (fun l s => s.fltClear l) s
  .next (s.routeSample.dschDone.coilsApply)

/-- R245: a blanking window ends; the asynchronous path sees the raw outputs again. -/
def execBlankWindowEnd (c : Fin 64) (s : State) : Host.Outcome State Fault Refusal :=
  match s.cmps[c].blank with
  | some t => .next (((s.reachAge t).modCmp c fun x => { x with blank := none }).asyncEval c)
  | none => .next s

/-- R244: the threshold DAC has settled. -/
def execDacSettled (c : Fin 64) (s : State) : Host.Outcome State Fault Refusal :=
  match s.cmps[c].settle with
  | some t =>
    .next ((((s.reachAge t).setFlag (R.CMP_STATUS_SETTLING c) false).modCmp c fun x => { x with settle := none }).rawEval c)
  | none => .next s

/-! ## Choke groups (R248) -/

/-- Does a source that has activated a group still read 1? -/
def State.sourceHolds (s : State) (src : ChokeSource) : Bool :=
  match src with
  | .above c => s.asyncAbove c
  | .below c => s.asyncBelow c
  | .flt l => s.flag (R.LEG_STATUS_FLT_IN l)
  | .route r => s.source (s.get (R.ROUTE_SRC r))

/-- Is group `g` held: forced, or by a source? -/
def State.groupHeld (s : State) (g : Fin 16) : Bool :=
  s.flag (R.CG_CTRL_FORCE g) || s.groups[g].any fun src => s.sourceHolds src

/-- R248: a CYCLE group ends its activity at a coarse tick at which no source holds it. -/
def execChokeGroupRelease (g : Fin 16) (s : State) : Host.Outcome State Fault Refusal :=
  if s.groupActive g && !s.flag (R.CG_CTRL_GMODE g) then
    let s := s.reachCoarse
    if s.groupActive g && !s.groupHeld g then .next (s.groupOff g) else .next s
  else .next s

/-- Does a CHOKE action name group `g` in the coarse tick in progress: one that has acted, or one of a route that has fired and
acts at this tick (R253)? -/
def State.chokedNow (s : State) (g : Fin 16) : Bool :=
  s.tick.choked.getLsbD g || s.router.fired.any fun x =>
    x.2 + 125 == s.time - BitVec.ofNat 48 s.fine && s.get (R.ROUTE_ACTION x.1) == 1 &&
      (s.get (R.ROUTE_ARG x.1)).testBit g

/-- R248, R253: a write of CLR. -/
def execCgClr (g : Fin 16) (a : Agent) (s : State) : Host.Outcome State Fault Refusal :=
  if s.reaches a && s.groupActive g && s.flag (R.CG_CTRL_GMODE g) && !s.groupHeld g && !s.chokedNow g then .next (s.groupOff g) else .next s

/-- R248, R388: a write of FORCE, which the lock of its group does not stop. -/
def execCgForce (g : Fin 16) (a : Agent) (on : Bool) (s : State) : Host.Outcome State Fault Refusal :=
  if s.reaches a then
    let s := s.setFlag (R.CG_CTRL_FORCE g) on
    .next (if on then s.groupOn g 0x100 2 else s)
  else .next s

/-! ## Route actions (R252, R253) -/

/-- The target easel of a route. -/
def State.routeEasel (s : State) (r : Fin 128) : Fin 8 := ⟨s.get (R.ROUTE_EASEL r) % 8, Nat.mod_lt _ (by decide)⟩

/-- CHOKE: every group that ARG names. -/
def State.routeChoke (s : State) (r : Fin 128) : State :=
  let mask := s.get (R.ROUTE_ARG r)
  { s.activateMask mask (.route r) with tick := { s.tick with choked := s.tick.choked ||| BitVec.ofNat 16 mask } }

/-- LATCH: a bit of RTR_LATCH. -/
def State.routeLatch (s : State) (r : Fin 128) : State :=
  s.raiseBit (R.RTR_LATCH_LATCH (s.routeEasel r)) (s.get (R.ROUTE_ARG r) % 32)

/-- POST, stamped with the tick of the fire. -/
def State.routePost (s : State) (r : Fin 128) (t : Time) : State :=
  let e := s.routeEasel r
  let src := s.get (R.ROUTE_SRC r)
  if src = 0xE0 then s.postEaselAt t e 0x20 [0, arg (s.get R.TEMPO_RING)]
  else if src = 0xE1 then s.postEaselAt t e 0x21 [0, arg (s.get R.FINE_CAL_TAPS_LAST)]
  else if src = 0xE2 then s.postEaselAt t e 0x22 [0, arg s.tbState]
  else s.postEaselAt t e 0x103 [arg r.val, arg src, arg (s.get (R.ROUTE_ARG r))]

/-- TRIGGER; its OFFSET starts at the tick of the action. -/
def State.routeTrigger (s : State) (r : Fin 128) : State :=
  let x := s.get (R.ROUTE_ARG r)
  let q : Fin 4 := ⟨x % 4, Nat.mod_lt _ (by decide)⟩
  let p : Fin 8 := ⟨x / 4 % 8, Nat.mod_lt _ (by decide)⟩
  if s.pairOwner p = some (s.routeEasel r) ∧ s.get (R.ADC_SEQ_SRC p q) = 3 then
    s.modPair p fun y => { y with routed := y.routed ++ [(q, s.age)] }
  else s

/-- A request for limp: it counts at the first downbeat at least 40 ns later (R81). In limp it changes nothing. -/
def State.requestLimp (s : State) (e : Fin 8) : State :=
  if s.limp e = limpNormal then s.modEz e fun z => { z with limpAt := some (z.limpAt.getD s.age) } else s

/-- A fired route acts at the tick after its fire. -/
def State.routeAct (s : State) (x : Fin 128 × Time) : State :=
  let s := s.reach (x.2 + 125)
  match s.get (R.ROUTE_ACTION x.1) with
  | 1 => s.routeChoke x.1
  | 2 => s.routeLatch x.1
  | 3 => s.routePost x.1 x.2
  | 4 => s.routeTrigger x.1
  | 5 => s.requestLimp (s.routeEasel x.1)
  | _ => s

/-- The routes that have fired, up to route `r`: they act before it or are it (R253). -/
def throughRoute (r : Fin 128) : List (Fin 128 × Time) → List (Fin 128 × Time)
  | [] => []
  | x :: l => if x.1 = r then [x] else x :: throughRoute r l

/-- Route `r` acts, with the routes that R253 puts before it. -/
def State.routeActs (s : State) (r : Fin 128) (action : Nat) : State :=
  if (s.router.fired.any fun x => x.1 == r) && s.get (R.ROUTE_ACTION r) == action then
    let now := throughRoute r s.router.fired
    now.foldl State.routeAct { s with router := { s.router with fired := s.router.fired.drop now.length } }
  else s

/-- R252: CHOKE. -/
def execChoke (r : Fin 128) (s : State) : Host.Outcome State Fault Refusal := .next (s.routeActs r 1)

/-- R252: LATCH. -/
def execLatch (r : Fin 128) (s : State) : Host.Outcome State Fault Refusal := .next (s.routeActs r 2)

/-- R252: POST. -/
def execPost (r : Fin 128) (s : State) : Host.Outcome State Fault Refusal := .next (s.routeActs r 3)

/-- R252: TRIGGER. -/
def execTrigger (r : Fin 128) (s : State) : Host.Outcome State Fault Refusal := .next (s.routeActs r 4)

/-- R252: FORCE_LIMP. -/
def execRouteForceLimp (r : Fin 128) (s : State) : Host.Outcome State Fault Refusal := .next (s.routeActs r 5)

end Sys2Proof.Machine
end

