-- ==== Sys2Proof/Machine/Commit.lean ====
section
/-! DEFINITION. The commit unit: what a commit makes real, transactions and withholding, reservations, limp and hold-and-ramp-down,
plausibility hold, release, and the whole of a downbeat (R22 to R27, R80 to R83, R99, R105 to R108, R154 to R160, R174 to R181). -/

namespace Sys2Proof.Machine

/-! ## Descriptors (R154, R155, R159) -/

/-- The positions of the values that a descriptor carries. -/
def Entry.positions (d : Entry) : List (Fin 5) := (fins 5).filter fun (j : Fin 5) => decide (j.val < d.count)

/-- The operand address of word `j` of a descriptor. -/
def Entry.wordAt (d : Entry) (j : Nat) : Nat :=
  if d.op = cmdStateWr ∨ d.op = cmdStateRd then stateBase + (d.address + j) % 4096 else (d.address + j) % 131072

/-- Writes the values of a STATE_WR or BANK_WR, in ascending order. -/
def State.writeWords (s : State) (e : Fin 8) (d : Entry) : State :=
  d.positions.foldl (fun s j => s.writeMem e (d.wordAt j.val) ⟨d.val j, false⟩) s

/-- Reads the words of a read command, each with its vacancy. -/
def State.readWords (s : State) (e : Fin 8) (d : Entry) : List (Word × Bool) × State :=
  d.positions.foldl (fun (x : List (Word × Bool) × State) (j : Fin 5) =>
    let r := x.2.readMem e (d.wordAt j.val)
    (x.1 ++ [(r.1.val, r.1.taint)], r.2)) ([], s)

/-- What a descriptor does at commit: the words it returns, and the state. The words of a BANK_RD are those of its bank read. -/
def State.applyDesc (s : State) (e : Fin 8) (x : LEntry) : List (Word × Bool) × State :=
  if x.desc.op = cmdStateWr ∨ x.desc.op = cmdBankWr then ([], s.writeWords e x.desc)
  else if x.desc.op = cmdStateRd then s.readWords e x.desc
  else if x.desc.op = cmdBankRd then match x.read with
    | .served _ ws => (ws, s)
    | _ => ([], s)
  else ([], s)

/-! ## Pending transactions and eligibility (R158, R174, R375) -/

/-- A pending transaction with the index of its first entry in the ledger. -/
abbrev Txn := Nat × List LEntry

/-- Transactions with the index of their first entries. -/
def indexed : Nat → List (List LEntry) → List Txn
  | _, [] => []
  | i, g :: t => (i, g) :: indexed (i + g.length) t

/-- The pending transactions, oldest first. -/
def Easel.pendingTxns (z : Easel) : List Txn := (indexed 0 (transactions z.ledger)).filter fun (p : Txn) => pendingGroup p.2

/-- Condition 2 of R158 at downbeat `n`; at a preload point no transaction with AT_EN meets it (R375). -/
def timely (preload : Bool) (n : BitVec 48) (x : LEntry) : Bool :=
  !x.desc.atEn || (!preload && (x.late || x.desc.atDb == n))

/-- Conditions 1 and 2 of R158: whole, old enough, and timely. -/
def State.ripe (s : State) (preload : Bool) (n : BitVec 48) (g : List LEntry) : Bool :=
  wholeGroup g && (g.all fun x => decide (x.accAge + 500 ≤ s.age)) && (match g with
    | x :: _ => timely preload n x
    | [] => false)

/-- Condition 4 of R158: the read of a BANK_RD ended at least 40 ns ago. -/
def State.readDone (s : State) (g : List LEntry) : Bool :=
  g.all fun x => x.desc.op != cmdBankRd || (match x.read with
    | .served t _ => decide (t + 500 ≤ s.age)
    | _ => false)

/-- The transactions that commit where no cause withholds them: eligible ones in order, within the limit of descriptors. -/
def dueTxns (ok : List LEntry → Bool) : Nat → List Txn → List Txn
  | _, [] => []
  | room, p :: t => if ok p.2 && decide (p.2.length ≤ room) then p :: dueTxns ok (room - p.2.length) t else []

/-- The limit of R174, or of R375. -/
def State.commitLimit (s : State) (e : Fin 8) (preload : Bool) : Nat :=
  if preload then 64 else max ((s.halfOf e).intakeK (s.entryOf e)) 8

/-- The due transactions of easel `e` at downbeat `n`. -/
def State.due (s : State) (e : Fin 8) (preload : Bool) (n : BitVec 48) : List Txn :=
  dueTxns (fun g => s.ripe preload n g && s.readDone g) (s.commitLimit e preload) (s.ez e).pendingTxns

/-! ## Commit, abort and withholding (R173, R176, R177, R181) -/

/-- Is entry `i` in the span of a transaction? -/
def inTxn (p : Txn) (i : Nat) : Bool := decide (p.1 ≤ i) && decide (i < p.1 + p.2.length)

/-- Changes the entries of a transaction. -/
def State.modTxn (s : State) (e : Fin 8) (p : Txn) (f : LEntry → LEntry) : State :=
  s.modEz e fun z => { z with ledger := z.ledger.mapIdx fun i x => if inTxn p i then f x else x }

/-- A transaction commits at downbeat `n`: its writes, its entries, LDG_LAST. -/
def State.commitTxn (s : State) (e : Fin 8) (n : BitVec 48) (p : Txn) : State :=
  let s := (List.range p.2.length).foldl (fun s i => s.readEntry e (p.1 + i)) s
  let r := p.2.foldl (fun (a : List (Word × Bool) × State) (x : LEntry) =>
    let q := a.2.applyDesc e x
    (a.1 ++ q.1, q.2)) ([], s)
  let s := r.2
  let ts := stamp s.time
  let s := s.modTxn e p fun x => { x with st := .committed, db := n, commitTs := ts, data := r.1 }
  match p.2 with
  | x :: _ =>
    let s := (s.set (R.LDG_LAST_LO_DB_LO e) n.toNat).set (R.LDG_LAST_HI_DB_HI e) (n.toNat / 2 ^ 32)
    (s.set (R.LDG_LAST_HI_CMD_IDX e) x.cmdIdx.toNat).modEz e fun z => { z with lastTag := x.desc.tag }
  | [] => s

/-- The entry of a transaction with an uncorrectable error. -/
def badEntry (p : Txn) : Option Nat := (p.2.findIdx? LEntry.broken).map (p.1 + ·)

/-- Marks transactions as withheld (R178). -/
def State.withhold (s : State) (e : Fin 8) (ps : List Txn) : State :=
  ps.foldl (fun s p => s.modTxn e p fun x => { x with replay := true }) s

/-- Step 2 of R22 where no cause of the whole easel is present: in order, up to the first transaction without its reservation,
which is withheld with those behind it, or with an uncorrectable error, which is aborted with every later one. -/
def State.commitTxns (s : State) (e : Fin 8) (n : BitVec 48) : List Txn → State
  | [] => s
  | p :: t =>
    if p.2.any fun x => !x.resv then s.withhold e (p :: t)
    else match badEntry p with
      | some i => (s.ledgerUe e i).abortPending e
      | none => (s.commitTxn e n p).commitTxns e n t

/-- Reserves completion slots in ledger order while they suffice (R180). -/
def State.reserveTxns (s : State) (e : Fin 8) : List Txn → State
  | [] => s
  | p :: t =>
    if p.2.all fun x => x.resv then s.reserveTxns e t
    else if p.2.length ≤ s.completionFree e then (s.modTxn e p fun x => { x with resv := true }).reserveTxns e t
    else s

def State.reserve (s : State) (e : Fin 8) : State :=
  if s.outage e then s else s.reserveTxns e (indexed 0 (transactions (s.ez e).ledger))

/-- The bank read of the oldest pending transaction, if it is a BANK_RD that meets conditions 1 to 3 (R160). -/
def State.issueRead (s : State) (e : Fin 8) (preload : Bool) (n : BitVec 48) : State :=
  match (s.ez e).pendingTxns with
  | p :: _ =>
    if s.ripe preload n p.2 && p.2.any (fun x => x.desc.op == cmdBankRd && x.read == .none) then
      s.modTxn e p fun x => { x with read := .issued }
    else s
  | [] => s

/-- Pending transactions whose AT_DB is `n` are late from now on (R175). -/
def State.markLate (s : State) (e : Fin 8) (n : BitVec 48) : State :=
  (s.ez e).pendingTxns.foldl (fun s p => match p.2 with
    | x :: _ => if x.desc.atEn && x.desc.atDb == n then s.modTxn e p fun y => { y with late := true } else s
    | [] => s) s

/-- LINK_HOLD clears 40 ns after the enable (R149). -/
def State.linkHoldEnds (s : State) (e : Fin 8) : State :=
  match (s.ez e).linkClearAt with
  | some t =>
    if t + 500 ≤ s.age then (s.setFlag (R.RING_STATUS_LINK_HOLD e) false).modEz e fun z => { z with linkClearAt := none } else s
  | none => s

/-- The causes that withhold every commit of easel `e`, beside supply hold (R177). -/
def State.withheldBy (s : State) (e : Fin 8) : Bool :=
  s.flag (R.RING_STATUS_LINK_HOLD e) || s.flag (R.ENG_STATUS_PHOLD e) || s.inHrd e

/-- Steps 2 and 3 of R22 at downbeat `n`, or at a preload point: due transactions commit or are withheld, an abort takes the
rest, bank reads are issued, and what has passed its AT_DB is late. -/
def State.ledgerStep (s : State) (e : Fin 8) (preload held : Bool) (n : BitVec 48) : State :=
  let due := s.due e preload n
  let s := if held || s.withheldBy e then s.withhold e due else s.commitTxns e n due
  let s := s.abortNow e
  let s := s.issueRead e preload n
  if preload then s else s.markLate e n

/-! ## What a pass makes real (R99, R244, R246, R255, R261, R280) -/

/-- A committed OUTS word takes effect. -/
def State.outReal (s : State) (e : Fin 8) (a : Nat) (w : Word) : State :=
  let s := s.modEz e fun z => { z with outs := Cells.put 0 a w z.outs }
  if a < 0x24380 then
    let c : Fin 64 := ⟨(a - outsBase) / 2 % 64, Nat.mod_lt _ (by decide)⟩
    if s.flag (R.CMP_CFG_PROT c) then s else s.setCode c (a % 2 == 0) (clampInt w.toInt 0 4095).toNat
  else if a = 0x24380 then s.modWheel fun x => { x with newCorr := some w }
  else if a = 0x24381 then s.modWheel fun x => { x with newFreq := some w }
  else if a = 0x24382 then s.modWheel fun x => { x with newResid := some w }
  else if within a 0x243B0 0x243B3 then s.postEasel e 0x104 [arg (a - 0x243B0), fill64 w]
  else s

/-- A written committable word becomes real. A block takes it from the port set of the easel that owns it at this instant alone
(R30, R109). -/
def State.wordReal (s : State) (e : Fin 8) (a : Nat) (w : Word) : State :=
  if within a shadowBase 0x21FFF then s.writeMem e (a - 0x1000) ⟨w, false⟩
  else if !s.ownsWord e a then s
  else if h : dutyBase ≤ a ∧ a < dutyBase + 64 then s.setPending ⟨a - dutyBase, by omega⟩ w
  else s.outReal e a w

/-- Fine ticks from final to the fence. -/
def State.slack (s : State) (e : Fin 8) (p : Pass) : Nat :=
  (s.passHalf p).entPeriod (s.passEntry e p) - 500 - ticksFrom p.openTime (p.final.getD 0)

/-- Step 1 of R22: the final pass becomes real. -/
def State.commitPass (s : State) (e : Fin 8) (p : Pass) : State :=
  let words := (s.ez e).shadow.map fun (x : Nat × TWord) => (x.1, x.2.val)
  let s := words.foldl (fun s x => s.wordReal e x.1 x.2) s
  let s := s.gridCommit e words
  let s := s.ownedLegs e fun l s => s.clearCause l causeReset
  let s := if p.sat then s.bumpW (R.SAT_CNT_COUNT e) (R.ENG_STATUS_SAT_OVF e) else s
  let s := (s.setFlag (R.ENG_STATUS_LAST_SAT e) p.sat).set (R.SCHED_STATUS_SLIP_RUN e) 0
  let n := s.slack e p
  (s.set (R.SLACK_LAST_SLACK e) n).set (R.SLACK_MIN_SLACK e) (min (s.get (R.SLACK_MIN_SLACK e)) n)

/-! ## How a pass closes (R27, R80, R104 to R107) -/

/-- The end of a pass at its closing downbeat. -/
inductive Closing where
  /-- No pass, a pass that supply hold denies, or one that plausibility hold discards. -/
  | nothing
  | fault (c : FaultClass) (i : Option Nat)
  | slip (p : Pass)
  | commit (p : Pass)
deriving DecidableEq, Repr

/-- The fault of a pass: the first of class P or F, else class V where a written word is tainted. -/
def Easel.passFault (z : Easel) (p : Pass) : Option (FaultClass × Option Nat) :=
  match p.fault with
  | some (c, i) => some (c, some i)
  | none => if z.shadow.any fun x => x.2.taint then some (.v, none) else none

/-- Does plausibility hold end with a pass that is final without a fault, the `k`-th in a row (R107)? -/
def State.holdEnds (s : State) (e : Fin 8) (k : Nat) : Bool :=
  let auto := s.get (R.PLAUS_CTRL_AUTO_REL e)
  (auto != 0 && decide (auto ≤ k)) || (match (s.ez e).releaseAt with
    | some t => decide (t + 500 ≤ s.age)
    | none => false)

/-- How the pass of easel `e` closes. -/
def State.closing (s : State) (e : Fin 8) (held : Bool) : Closing :=
  match (s.ez e).pass with
  | none => .nothing
  | some p => match (s.ez e).passFault p with
    | some (c, i) => .fault c i
    | none =>
      if held then .nothing
      else if s.finalInTime e p then
        if s.flag (R.ENG_STATUS_PHOLD e) && !s.holdEnds e ((s.ez e).goodFinals + 1) then .nothing else .commit p
      else if s.flag (R.ENG_STATUS_PHOLD e) then .nothing else .slip p

/-- Is the pass of easel `e` final without a fault? -/
def State.closesGood (s : State) (e : Fin 8) (held : Bool) : Bool :=
  match (s.ez e).pass with
  | some p => !held && ((s.ez e).passFault p).isNone && s.finalInTime e p
  | none => false

/-- A pass with a fault closes: plausibility hold (R105). -/
def State.closeFault (s : State) (e : Fin 8) (c : FaultClass) (i : Option Nat) : State :=
  let s := s.setFlag (R.ENG_STATUS_PHOLD e) true
  let s := match c with
    | .v => (s.raise (R.ENG_STATUS_FAULT_V e)).bumpS (R.PLAUS_CNT_V e)
    | .p => (s.raise (R.ENG_STATUS_FAULT_P e)).bumpS (R.PLAUS_CNT_P e)
    | .f => (s.raise (R.ENG_STATUS_FAULT_F e)).bumpS (R.PLAUS_CNT_F e)
  let s := match i with
    | some i => (s.setFlag (R.ENG_STATUS_INPUT_VALID e) true).set (R.ENG_STATUS_LAST_INPUT e) i
    | none => s
  let code := match c with
    | .v => 0
    | .p => 1
    | .f => 2
  ((s.postEasel e 0x18 [arg code, arg (i.getD 0xFF)]).pulse (0xD8 + e.val))

/-- A slipped pass closes at downbeat `n` (R80). -/
def State.closeSlip (s : State) (e : Fin 8) (n : BitVec 48) : State :=
  let s := (s.raise (R.SCHED_STATUS_OVERRUN e)).bumpW (R.SLIP_CNT_COUNT e) (R.SCHED_STATUS_SLIP_OVF e)
  let s := s.bumpS (R.SCHED_STATUS_SLIP_RUN e)
  s.postEasel e 0x15 [0, n.setWidth 64, arg (s.get (R.SCHED_STATUS_SLIP_RUN e))]

/-- Plausibility hold ends (R107, R108). -/
def State.endPhold (s : State) (e : Fin 8) : State :=
  ((s.setFlag (R.ENG_STATUS_PHOLD e) false).setFlag (R.ENG_STATUS_RELEASE_PEND e) false).modEz e fun z =>
    { z with releaseAt := none, goodFinals := 0 }

/-- The miss counters reset at a release from plausibility hold (R104). -/
def State.clearMisses (s : State) (e : Fin 8) : State :=
  (List.range 64).foldl (fun s i => s.set (R.PCTL_MISS e i) 0) s

/-! ## Limp (R81, R82) -/

def reqDue (age : Nat) (at_ : Option Nat) : Bool :=
  match at_ with
  | some t => decide (t + 500 ≤ age)
  | none => false

/-- The limp state to enter at this downbeat, with the cause that LIMP_ENTER reports: HRD before LIMP_PASS, a slip limit before a
FORCE_LIMP (log entry 40). DESIGN CHOICE: the SLIP_LIMIT is that of the entry of the pass that slipped, at a swap downbeat that of
the old image (log entry 93). -/
def State.limpTarget (s : State) (e : Fin 8) (cl : Closing) : Option (Nat × Nat) :=
  let slipped := match cl with
    | .slip p => decide ((s.passHalf p).slipLimit (s.passEntry e p) ≤ s.get (R.SCHED_STATUS_SLIP_RUN e))
    | _ => false
  let hrd := reqDue s.age (s.ez e).hrdAt
  let limp := reqDue s.age (s.ez e).limpAt
  if s.limp e = limpNormal then
    let next := if (s.halfOf e).limpKind (s.entryOf e) = 1 then limpPass else limpHrd
    if hrd then some (limpHrd, 2) else if slipped then some (next, 0) else if limp then some (next, 1) else none
  else if s.limp e = limpPass then
    if hrd then some (limpHrd, 2) else if slipped then some (limpHrd, 0) else none
  else none

/-- Requests whose downbeat has come are spent. -/
def State.spendRequests (s : State) (e : Fin 8) : State :=
  s.modEz e fun z => { z with limpAt := if reqDue s.age z.limpAt then none else z.limpAt,
                              hrdAt := if reqDue s.age z.hrdAt then none else z.hrdAt }

/-- Entry into HRD: the copies, the choke of legs without a ramp entry, the end of plausibility hold (R82, R108). -/
def State.enterHrd (s : State) (e : Fin 8) (wasLimp : Bool) : State :=
  let h := s.halfOf e
  let o := h.entry e wasLimp
  let ramp := h.ramp o
  let s := s.modEz e fun z => { z with hrd := some ⟨h.hrdHold o, ramp⟩ }
  let s := s.ownedLegs e fun l s => if ramp.any fun r => r.1 == l then s else s.setCause l causeHrd
  if s.flag (R.ENG_STATUS_PHOLD e) then s.endPhold e else s

/-- Entry into a limp state at a downbeat (R81). -/
def State.enterLimp (s : State) (e : Fin 8) (st cause : Nat) : State :=
  let wasLimp := s.limp e == limpPass
  let s := (s.set (R.SCHED_STATUS_LIMP_STATE e) st).set (R.SCHED_STATUS_SLIP_RUN e) 0
  let s := s.postEasel e 0x16 [arg st, arg cause]
  if st = limpHrd then s.enterHrd e wasLimp else s

/-- The next value of a ramp: toward the target by the step, which is unsigned, the last move exactly on it. -/
def rampNext (v target step : Word) : Word :=
  let d := target.toInt - v.toInt
  if d.natAbs ≤ step.toNat then target
  else if 0 < d then BitVec.ofInt 40 (v.toInt + step.toNat) else BitVec.ofInt 40 (v.toInt - step.toNat)

/-- A downbeat in HRD: hold, then ramp, then the choke of every leg (R82). DESIGN CHOICE: the downbeat of entry neither counts
among the HRD_HOLD downbeats nor takes a step (log entry 94). -/
def State.hrdStep (s : State) (e : Fin 8) : State :=
  match (s.ez e).hrd with
  | some h =>
    let mine := h.ramp.filter fun (r : Fin 64 × Word × Word) => s.ownerLeg r.1 == some e
    if 0 < h.hold then s.modEz e fun z => { z with hrd := some { h with hold := h.hold - 1 } }
    else if mine.all fun r => (s.leg r.1).pending == r.2.1 then
      let s := s.ownedLegs e fun l s => s.setCause l causeHrd
      (s.set (R.SCHED_STATUS_LIMP_STATE e) limpDone).modEz e fun z => { z with hrd := none }
    else mine.foldl (fun s r => s.setPending r.1 (rampNext (s.leg r.1).pending r.2.1 r.2.2)) s
  | none => s

/-! ## Release (R26, R93, R126, R254) -/

/-- The sum of bits `lo` to `lo + n - 1` of a family, as a word. -/
def bitWord (lo n : Nat) (f : Nat → Bool) : Word :=
  BitVec.ofNat 40 ((List.range n).foldl (fun w i => if f (lo + i) then w + 2 ^ i else w) 0)

/-- The words of R254 and the downbeat number and tempo (R91). -/
def State.coreSysin (s : State) (e : Fin 8) : List (Nat × TWord) :=
  let choked (l : Nat) : Bool := s.owns (R.OWN_LEG l) e && s.flag (R.LEG_STATUS_CHOKED l)
  let above (c : Nat) : Bool := s.owns (R.OWN_CMP c) e && s.flag (R.CMP_STATUS_ABOVE c)
  let below (c : Nat) : Bool := s.owns (R.OWN_CMP c) e && s.flag (R.CMP_STATUS_BELOW c)
  let state := s.limp e + 4 * s.get (R.ENG_STATUS_PHOLD e)
  [(0x24200, ⟨(s.ez e).dbCount.setWidth 40, false⟩), (0x24201, ⟨BitVec.ofNat 40 (s.get R.TEMPO_TEMPO), false⟩),
   (0x24202, ⟨bitWord 0 40 choked, false⟩), (0x24203, ⟨bitWord 40 24 choked, false⟩),
   (0x24204, ⟨BitVec.ofNat 40 (s.get (R.RTR_LATCH_LATCH e)), false⟩), (0x24205, ⟨BitVec.ofNat 40 state, false⟩),
   (0x24206, ⟨bitWord 0 40 above, false⟩), (0x24207, ⟨bitWord 40 24 above, false⟩),
   (0x24208, ⟨bitWord 0 40 below, false⟩), (0x24209, ⟨bitWord 40 24 below, false⟩)]

/-- Every SYSIN word of easel `e` at release. -/
def State.sysinNow (s : State) (e : Fin 8) : Cells TWord :=
  (s.coreSysin e ++ s.wheelSysin e ++ s.gridSysin e ++ s.mtrSysin e ++ s.auxSysin e).foldl
    (fun (m : Cells TWord) (p : Nat × TWord) => Cells.put ⟨0, false⟩ p.1 p.2 m) []

/-- May a region of the transparent test start at this release (R126)? -/
def State.regionDue (s : State) (e : Fin 8) : Bool :=
  s.flag (R.BTEST_CTRL_EN e) && s.run e && (s.ez e).dbCount.toNat % s.get (R.BTEST_CTRL_INTERVAL e) == 0
    && !s.testBusy e && !s.flag (R.BTEST_STATUS_PARKED e)

/-- Step 4 of R22: the next pass is released, and the entries that have landed in its period serve its inputs. -/
def State.release (s : State) (e : Fin 8) : State :=
  let p : Pass := { half := s.halfNo e, limp := s.limp e == limpPass, openDb := (s.ez e).dbCount, openTime := s.time }
  let sys := s.sysinNow e
  let s := s.modEz e fun z => { z.clearLocal with pass := some p, shadow := [], sysin := sys }
  let s := s.set (R.MEM_STATUS_QUOTA_USED e) 0
  let s := if s.regionDue e then s.regionStart e else s
  ((s.ez e).queue.filter fun x => x.db == some p.openDb).foldl (fun s x => s.landTag e x.tag x.val x.flags) s

/-- May a pass be released now? -/
def State.mayRelease (s : State) (e : Fin 8) (held : Bool) : Bool := s.run e && !held && !s.inHrd e && s.hasImage e

/-! ## The downbeat (R22, R51, R54) -/

/-- The downbeat takes its number and places the next one; a downbeat that fires after RUN was cleared is the last. -/
def State.dbTake (s : State) (e : Fin 8) (t : Time) : State :=
  let n := s.nextDb e
  let next := some (t + BitVec.ofNat 48 (s.get (R.DB_PERIOD_PERIOD e)))
  s.modEz e fun z =>
    { z with dbCount := n, dbFired := true, lastDb := some s.age, gen := if z.genLast.isSome then z.gen else next,
             genLast := none }

/-- Is supply hold in force for easel `e` at this downbeat: hold, or less than 40 ns after the qualification instant (R344)? -/
def State.heldAt (s : State) (e : Fin 8) : Bool :=
  s.hold || (match (s.ez e).resumeAt with
    | some t => decide (s.age < t + 500)
    | none => false)

/-- The resume downbeat: the HOLD cause clears from the easel's legs (R344). -/
def State.resumeEasel (s : State) (e : Fin 8) : State :=
  if (s.ez e).resumeAt.isSome then
    (s.ownedLegs e fun l s => s.clearCause l causeHold).modEz e fun z => { z with resumeAt := none }
  else s

/-- The easel changes image at its swap downbeat (R72). -/
def State.swapDownbeat (s : State) (e : Fin 8) : State :=
  if s.swapPending && s.img.reached && !s.img.changed.getLsbD e.val then s.swapEasel e else s

/-- SWAP_TIME has come by this downbeat (R72). -/
def State.swapDue (s : State) : State :=
  if s.swapPending && !s.img.reached && timeLe s.swapTime s.time then s.swapReached else s

/-- The RESID that a closing pass makes real for the wheel. -/
def State.residReal (s : State) (e : Fin 8) (commits : Bool) : Option Word :=
  if commits then ((s.ez e).written 0x24382).map TWord.val else none

/-- Step 1 of R22, with slips, faults, limp and the image change (R72, R80 to R82, R105 to R108). At an entry into HRD no pass
commits (log entry 41). -/
def State.closePass (s : State) (e : Fin 8) (held : Bool) : State :=
  let cl := s.closing e held
  let good := s.closesGood e held
  let wasHrd := s.inHrd e
  let s := s.modEz e fun z => { z with goodFinals := if good then z.goodFinals + 1 else if z.pass.isSome then 0 else z.goodFinals }
  let s := match cl with
    | .fault c i => s.closeFault e c i
    | .slip _ => s.closeSlip e (s.ez e).dbCount
    | _ => s
  let s := s.swapDownbeat e
  let target := s.limpTarget e cl
  let s := s.spendRequests e
  let toHrd := match target with
    | some (st, _) => st == limpHrd
    | none => false
  let real := match cl with
    | .commit _ => !toHrd
    | _ => false
  let resid := s.residReal e real
  let s := match cl with
    | .commit p =>
      if toHrd then s
      else
        let s := if s.flag (R.ENG_STATUS_PHOLD e) then (s.endPhold e).clearMisses e else s
        s.commitPass e p
    | _ => s
  let s := if s.ownerWheel = some e then s.residSample resid else s
  let s := s.dropPass e
  match target with
  | some (st, c) => s.enterLimp e st c
  | none => if wasHrd && !held then s.hrdStep e else s

/-- The queue retires the entries of earlier periods (R201), and the open sample entry of an earlier period closes (R167). -/
def State.retireQueue (s : State) (e : Fin 8) : State :=
  let n := (s.ez e).dbCount
  let q := (s.ez e).queue.filter fun x => x.db == some n
  let s := (s.modEz e fun z => { z with queue := q }).set (R.Q_STATUS_FILL e) q.length
  match (s.ez e).sample with
  | some o => if o.db = n then s else s.closeSample e
  | none => s

/-- A downbeat of easel `e` at this instant: steps 1 to 4 of R22, with what other rules tie to a downbeat. -/
def State.downbeat (s : State) (e : Fin 8) (t : Time) : State :=
  let last := (s.ez e).genLast.isSome
  let s := ((s.swapDue.dbTake e t).reserve e).linkHoldEnds e
  let held := s.heldAt e
  let s := if held then s else s.resumeEasel e
  let s := s.closePass e held
  let s := s.ledgerStep e false held (s.ez e).dbCount
  let s := (s.irqDownbeat e).retireQueue e
  let s := s.swapCheck
  if last then s.modEz e fun z => { z with lastDb := none }
  else if s.mayRelease e held then s.release e else s

/-- The next downbeat of easel `e`: at its point, or one candidate further while FINE_OK is 0. -/
def State.fireDownbeat (s : State) (e : Fin 8) : State :=
  match s.dbPoint e with
  | some t =>
    let s := s.reach t
    if s.dbMoves e then
      let next := some (t + BitVec.ofNat 48 (s.get (R.DB_PERIOD_PERIOD e)))
      s.modEz e fun z => { z with gen := if z.genLast.isSome then z.gen else next, genLast := none }
    else s.downbeat e t
  | none => s

/-- R22: a downbeat of easel `e`; without a downbeat to come, nothing happens. -/
def execDownbeat (e : Fin 8) (s : State) : Host.Outcome State Fault Refusal := .next (s.fireDownbeat e)

/-! ## Preload points (R374 to R376) -/

/-- Do the conditions of R374 hold? -/
def State.preloadActive (s : State) (e : Fin 8) : Bool :=
  s.flag (R.BRING_CTRL_PRELOAD e) && !s.run e && !s.outage e

/-- A preload point at this instant: commits, then the fetch; in HRD and HRD_DONE no doorbell is read (R82). -/
def State.preloadAt (s : State) (e : Fin 8) : State :=
  let s := ((s.reserve e).linkHoldEnds e).ledgerStep e true s.hold 0
  if s.inHrd e then s else s.intakeStart e true

/-- The next preload point of easel `e`: the next TIME48 multiple of 128,000 at which the conditions hold. -/
def State.firePreload (s : State) (e : Fin 8) : State :=
  if s.preloadActive e then
    let s := s.reachMultiple 128000
    if s.preloadActive e then s.preloadAt e else s
  else s

/-- R374: a preload point. -/
def execPreloadPoint (e : Fin 8) (s : State) : Host.Outcome State Fault Refusal := .next (s.firePreload e)

/-! ## Descriptor commands at the next commit point (R154, R159, R160) -/

/-- Does the oldest pending transaction of easel `e` hold a descriptor with this opcode? -/
def State.nextHolds (s : State) (e : Fin 8) (op : Nat) : Bool :=
  match (s.ez e).pendingTxns with
  | p :: _ => p.2.any fun x => x.desc.op == op
  | [] => false

/-- The next commit point of easel `e`, a downbeat or a preload point, if the oldest pending transaction holds such a
descriptor: a transaction commits only whole, and only there (R24, R157). -/
def State.commitPoint (s : State) (e : Fin 8) (op : Nat) : State :=
  if s.nextHolds e op then (if s.run e then s.fireDownbeat e else s.firePreload e) else s

/-- R154: NOP commits with no effect, and a completion is owed. -/
def execDescriptorNop (e : Fin 8) (s : State) : Host.Outcome State Fault Refusal := .next (s.commitPoint e cmdNop)

/-- R154: STATE_WR writes state words. -/
def execStateWr (e : Fin 8) (s : State) : Host.Outcome State Fault Refusal := .next (s.commitPoint e cmdStateWr)

/-- R154: BANK_WR writes bank words. -/
def execBankWr (e : Fin 8) (s : State) : Host.Outcome State Fault Refusal := .next (s.commitPoint e cmdBankWr)

/-- R159: STATE_RD reads committed state words. -/
def execStateRd (e : Fin 8) (s : State) : Host.Outcome State Fault Refusal := .next (s.commitPoint e cmdStateRd)

/-- R160: BANK_RD issues its bank reads, or returns the words read. -/
def execBankRd (e : Fin 8) (s : State) : Host.Outcome State Fault Refusal := .next (s.commitPoint e cmdBankRd)

/-- The index of the oldest entry with an issued bank read. -/
def Easel.issuedRead (z : Easel) : Option Nat := z.ledger.findIdx? fun x => x.read == .issued

/-- R160: the bank reads of a BANK_RD are served; `stalled` of its grants made a tile wait, which counts against the quota in
STALL mode (R122). -/
def execBankReadComplete (e : Fin 8) (stalled : Fin 6) (s : State) : Host.Outcome State Fault Refusal :=
  match (s.ez e).issuedRead with
  | some i =>
    match (s.ez e).ledger[i]? with
    | some x =>
      let r := s.readWords e x.desc
      let s := r.2.modEntry e i fun y => { y with read := .served s.age r.1 }
      let used := s.get (R.MEM_STATUS_QUOTA_USED e)
      if s.flag (R.MEM_CTRL_ARB e) then .next s
      else .next (s.set (R.MEM_STATUS_QUOTA_USED e) (max used (min (used + stalled.val) (s.get (R.MEM_CTRL_STALL_QUOTA e)))))
    | none => .next s
  | none => .next s

/-! ## Deadlines of a pass (R79) -/

/-- The instant of an offset from the opening of a pass. -/
def Pass.offset (p : Pass) (n : Nat) : Time := p.openTime + BitVec.ofNat 48 n

/-- R79: the DEADLINE of input `i`: a pass in which it has not landed slips. -/
def execInputDeadline (e : Fin 8) (i : Fin 64) (s : State) : Host.Outcome State Fault Refusal :=
  match (s.ez e).pass with
  | some p =>
    let h := s.passHalf p
    let o := s.passEntry e p
    if i.val < h.nInputs o then
      let s := s.reach (p.offset (h.inDeadline o i.val))
      .next (if p.landed.getLsbD i.val then s else s.slipPass e)
    else .next s
  | none => .next s

/-- R79: the fence: a pass that is not final slips. -/
def execFenceReached (e : Fin 8) (s : State) : Host.Outcome State Fault Refusal :=
  match (s.ez e).pass with
  | some p =>
    let s := s.reach (p.offset ((s.passHalf p).entPeriod (s.passEntry e p) - 500))
    .next (if s.finalInTime e p then s else s.slipPass e)
  | none => .next s

/-! ## Requests (R81, R107) -/

/-- R81: a write of FORCE_LIMP. -/
def execForceLimp (e : Fin 8) (a : Agent) (s : State) : Host.Outcome State Fault Refusal :=
  if s.reachesWindow a e then .next (s.requestLimp e) else .next s

/-- A request for HRD: in HRD or HRD_DONE it changes nothing. -/
def State.requestHrd (s : State) (e : Fin 8) : State :=
  if s.inHrd e then s else s.modEz e fun z => { z with hrdAt := some (z.hrdAt.getD s.age) }

/-- R81: a write of FORCE_HRD. -/
def execForceHrd (e : Fin 8) (a : Agent) (s : State) : Host.Outcome State Fault Refusal :=
  if s.reachesWindow a e then .next (s.requestHrd e) else .next s

/-- A request for release, ignored outside plausibility hold. -/
def State.requestRelease (s : State) (e : Fin 8) : State :=
  if s.flag (R.ENG_STATUS_PHOLD e) then
    (s.setFlag (R.ENG_STATUS_RELEASE_PEND e) true).modEz e fun z => { z with releaseAt := some (z.releaseAt.getD s.age) }
  else s

/-- R107: a write of RELEASE. -/
def execRelease (e : Fin 8) (a : Agent) (s : State) : Host.Outcome State Fault Refusal :=
  if s.reachesWindow a e then .next (s.requestRelease e) else .next s

end Sys2Proof.Machine
end

