-- ==== Sys2Proof/Machine/LinkCommands.lean ====
section
/-! DEFINITION. What the controller does with uplink words, time-outs and writes of the link registers (Daderal Pods and
Sprinrek Links). -/

namespace Sys2Proof.Machine

/-! ## Reception (R214) -/

/-- Type and data of a control word. -/
def controlType (w : BitVec 32) : Nat := w.toNat % 256
def controlData (w : BitVec 32) : Nat := w.toNat / 2 ^ 8 % 65536
def controlSeq (w : BitVec 32) : BitVec 4 := w.extractLsb' 24 4

/-- A word whose check fails is discarded and counted. -/
def State.discardWord (s : State) (p : Fin 16) : State := s.bumpS (R.SL_COUNTS_CRC_ERR_CNT p)

/-- Is a body intact: do its chips keep the code, and does its check hold? -/
def bodyOk (x : BitVec 64) : Bool := chipsOk x && wordOk (chipsBody x)

/-- The chips of a body arrive at the controller: `f` is what a valid body does. Nothing arrives without carrier. -/
def State.receive (s : State) (p : Fin 16) (x : BitVec 64) (f : BitVec 32 → State → State) : State :=
  if s.level p = 0 then s
  else if bodyOk x then f (chipsBody x) (s.modLink p fun y => { y with lastWord := s.age })
  else s.discardWord p

/-- The same for a control word of one type; a word of another type is another row's. -/
def State.receiveControl (s : State) (p : Fin 16) (x : BitVec 64) (type : Nat) (f : BitVec 32 → State → State) : State :=
  if bodyOk x && controlType (chipsBody x) != type then s else s.receive p x f

/-- A sample word in TRAIN: the latency of a settled word with PODQ = GOOD (R224). -/
def State.measureWord (s : State) (p : Fin 16) (c : Fin 4) (podq : Nat) : State :=
  let x := s.link p
  if x.train = .measure ∧ podq = 0 ∧ x.chOn c = true ∧ x.words[c] < 8 then
    let latest := s.age - 21250
    let out := latest - ((((s.timeAt latest).toNat : Int) - (x.phase[c]).toNat) % (x.chPeriod c : Int)).toNat
    let l := s.coarseAt s.age - out
    let s := s.modLink p fun x =>
      { x with words := upd x.words c fun n => n + 1, least := upd x.least c fun m => if x.words[c] = 0 then l else min m l }
    if (s.link p).measured then s.trainDone p else s
  else s

/-- A sample word in REALIGN (R222). -/
def State.realignWord (s : State) (p : Fin 16) (c : Fin 4) (podq : Nat) : State :=
  if podq = 3 then s
  else
    let s := s.modLink p fun x => { x with settled := x.settled ||| BitVec.ofNat 4 (2 ^ c.val) }
    if (s.link p).channels.all fun d => (s.link p).settled.getLsbD d.val then s.linkUp p else s

/-- R214: the controller receives a sample word. -/
def execSampleWord (p : Fin 16) (x : BitVec 64) (s : State) : Host.Outcome State Fault Refusal :=
  .next (s.receive p x fun w s =>
    let c : Fin 4 := ⟨w.toNat / 2 ^ 24 % 4, Nat.mod_lt _ (by decide)⟩
    let podq := w.extractLsb' 26 2
    if s.slState p = slTrain then s.measureWord p c podq.toNat
    else if s.slState p = slRealign then s.realignWord p c podq.toNat
    else if s.slState p = slUp ∧ s.bit (R.SL_STATUS_CH_UP p) c.val = true then
      s.modLink p fun x => { x with landing := x.landing ++ [⟨c, w.setWidth 24, podq, s.age⟩] }
    else s)

/-- R195: a pod sample lands 40 ns after its word was received; in its turn, where several sources land at one fine tick
(R198). -/
def execPodSampleLand (p : Fin 16) (s : State) : Host.Outcome State Fault Refusal :=
  match (s.link p).landing with
  | x :: rest =>
    let ch := podCh p x.ch
    let t := s.coarseAt (x.at_ + 500)
    if s.landTurn (s.owner (R.OWN_PODCH ch)) t (16 + ch.val) then
      .next (((s.reachAge t).modLink p fun y => { y with landing := rest }).landPod ch x.value x.podq)
    else .next s
  | [] => .next s

/-- R222: the controller receives HELLO. -/
def execHello (p : Fin 16) (x : BitVec 64) (s : State) : Host.Outcome State Fault Refusal :=
  .next (s.receiveControl p x 0x01 fun _ s =>
    let s := s.modLink p fun x => { x with gone := false }
    let st := s.slState p
    if st = slCharge then s.trainEnter p 0
    else if st = slUp ∨ st = slRealign then s.trainEnter p 3
    else if st = slTrain ∧ (s.link p).train = .reset then s.trainEcho p
    else s)

/-- The level that power control sets on a STATUS word (R221). -/
def State.powerControl (s : State) (p : Fin 16) (vstore : Nat) : State :=
  let level := s.level p
  if vstore < s.get (R.SL_PCTL_VT_LO p) then
    (if level < s.get (R.SL_CTRL_LEVEL_MAX p) then s.set (R.SL_STATUS_LEVEL p) (level + 1) else s)
  else if s.get (R.SL_PCTL_VT_HI p) < vstore then
    (if 1 < level then s.set (R.SL_STATUS_LEVEL p) (level - 1) else s)
  else s

/-- R221: the controller receives STATUS. -/
def execStatus (p : Fin 16) (x : BitVec 64) (s : State) : Host.Outcome State Fault Refusal :=
  .next (s.receiveControl p x 0x02 fun w s =>
    let d := controlData w
    let s := ((s.set (R.SL_STATUS_VSTORE p) d).set (R.SL_STATUS_PG p) (d / 2 ^ 8)).set (R.SL_STATUS_ON_ALT p) (d / 2 ^ 11)
    let s := s.powerControl p (d % 256)
    let s := if (s.link p).gone then (s.modLink p fun x => { x with gone := false }).postLink p 0x305 [arg d] else s
    if d / 2 ^ 13 % 2 = 0 ∧ (s.slState p = slUp ∨ s.slState p = slRealign) then
      (s.setFlag (R.SL_STATUS_CFG_OK p) false).trainEnter p 4
    else s)

/-- Does the word answer the frame of the training step, or the access in progress? -/
def State.answersStep (s : State) (p : Fin 16) (w : BitVec 32) : Bool :=
  s.slState p == slTrain && controlSeq w == (s.link p).seq
def State.answersAccess (s : State) (p : Fin 16) (w : BitVec 32) : Bool :=
  match (s.link p).acc with
  | some (q, _) => q == controlSeq w
  | none => false

/-- The access of SL_ACC ends. -/
def State.accessEnd (s : State) (p : Fin 16) : State :=
  (s.setFlag (R.SL_ACC_BUSY p) false).modLink p fun x => { x with acc := none }

/-- R223: the controller receives ECHO_RSP. -/
def execEchoRsp (p : Fin 16) (x : BitVec 64) (s : State) : Host.Outcome State Fault Refusal :=
  .next (s.receiveControl p x 0x06 fun w s =>
    if s.answersStep p w then
      match (s.link p).train with
      | .echo (_ + 2) => (s.trainStep p (.echo 1)).sendFrame p cmdEcho 0 0
      | .echo _ => s.trainConfig p 0
      | _ => s
    else s)

/-- R223: the controller receives WRITE_ACK. -/
def execWriteAck (p : Fin 16) (x : BitVec 64) (s : State) : Host.Outcome State Fault Refusal :=
  .next (s.receiveControl p x 0x04 fun w s =>
    if s.answersAccess p w then s.accessEnd p
    else if s.answersStep p w then
      match (s.link p).train with
      | .config k => if h : k + 1 < 19 then s.trainConfig p ⟨k + 1, h⟩ else (s.trainStep p .crc).sendFrame p cmdRead 0x07 0
      | .alarm => s.trainMeasure p
      | _ => s
    else s)

/-- R223, R230: the controller receives READ_RSP. -/
def execReadRsp (p : Fin 16) (x : BitVec 64) (s : State) : Host.Outcome State Fault Refusal :=
  .next (s.receiveControl p x 0x03 fun w s =>
    if s.answersAccess p w then (s.set (R.SL_ACC_DATA p) (controlData w)).accessEnd p
    else if s.answersStep p w && (s.link p).train == .crc then
      let ok := controlData w == cfgCrc (s.link p).cfg.toList
      let s := s.setFlag (R.SL_STATUS_CFG_OK p) ok
      if ok then (s.trainStep p .alarm).sendFrame p cmdWrite 0x05 0xFFFF else s.trainFail p
    else s)

/-- An ALARM word or burst is delivered (R227, R228). -/
def State.podAlarm (s : State) (p : Fin 16) (bits_ : Nat) (burst : Bool) : State :=
  ((s.set (R.SL_ALARM_LAST p) bits_).pulse (0xC0 + p.val)).postLink p 0x304 [arg (bits_ % 256), arg burst.toNat]

/-- R227: the controller receives ALARM. -/
def execAlarm (p : Fin 16) (x : BitVec 64) (s : State) : Host.Outcome State Fault Refusal :=
  .next (s.receiveControl p x 0x05 fun w s => s.podAlarm p (controlData w) false)

/-- R228: the controller receives an active burst: the preamble, then the body of an ALARM word. -/
def execBurstReceive (p : Fin 16) (burst : BitVec 48) (s : State) : Host.Outcome State Fault Refusal :=
  let w : BitVec 32 := burst.extractLsb' 16 32
  if s.flag (R.SL_CTRL_EN p) && s.level p == 0 && burst.toNat % 65536 == 0xACFF then
    if !wordOk w then .next (s.discardWord p)
    else if controlType w ≠ 0x05 then .next s
    else
      let s := (s.bumpS (R.SL_COUNTS_BURST_CNT p)).raise (R.SL_ALARM_VIA_BURST p)
      .next (s.podAlarm p (controlData w) true)
  else .next s

/-! ## Writes and time-outs (R222, R223) -/

/-- R222: a write of SL_CTRL.EN. -/
def execSlEn (p : Fin 16) (a : Agent) (on : Bool) (s : State) : Host.Outcome State Fault Refusal :=
  if s.mayEnable a 4 (R.SL_CTRL_EN p) on then
    let s := s.setFlag (R.SL_CTRL_EN p) on
    if on then
      if s.slState p = slOff then .next ((s.slEnter p slCharge).carrierOn p) else .next s
    else if s.slState p = slOff then .next s
    else .next ((s.slEnter p slOff).carrierOff p)
  else .next s

/-- R222: a write of SL_CTRL.RETRAIN. -/
def execRetrain (p : Fin 16) (a : Agent) (s : State) : Host.Outcome State Fault Refusal :=
  if s.reaches a && (s.slState p == slUp || s.slState p == slRealign) then .next (s.trainEnter p 1) else .next s

/-- R222: 10 ms of charge without HELLO. -/
def execChargeTimeout (p : Fin 16) (s : State) : Host.Outcome State Fault Refusal :=
  if s.slState p = slCharge ∧ s.level p ≠ 0 then
    let s := s.reachAge ((s.link p).carrierAt + 125000000)
    if s.slState p = slCharge then
      let r := s.linkFails p
      .next (if r.2 then r.1 else r.1.carrierOff p)
    else .next s
  else .next s

/-- R222: 1 ms off, and the carrier turns on again. -/
def execChargeRetry (p : Fin 16) (s : State) : Host.Outcome State Fault Refusal :=
  if s.slState p = slCharge ∧ s.level p = 0 then
    let s := s.reachAge ((s.link p).carrierAt + 12500000)
    .next (if s.slState p = slCharge ∧ s.level p = 0 then s.carrierOn p else s)
  else .next s

/-- R222: no valid word for 160 µs. -/
def execLinkSilence (p : Fin 16) (s : State) : Host.Outcome State Fault Refusal :=
  if s.slState p = slUp ∨ s.slState p = slRealign then
    let s := s.reachAge ((s.link p).lastWord + 2000000)
    if s.slState p = slUp ∨ s.slState p = slRealign then .next (s.trainEnter p 2) else .next s
  else .next s

/-- How long a training step may take: 200 µs; step 5 at least its own bound (R223). -/
def Link.stepLimit (x : Link) : Nat :=
  if x.train = .measure then x.channels.foldl (fun m c => max m (8 * x.chPeriod c + 1500 * x.chM c)) 2500000 else 2500000

/-- R223, R230: a training step, or an access to a pod register, has no answer. -/
def execPodAnswerTimeout (p : Fin 16) (s : State) : Host.Outcome State Fault Refusal :=
  let x := s.link p
  match x.acc with
  | some (_, t) =>
    .next (((s.reachAge (t + 2500000)).accessEnd p).raise (R.SL_ACC_ERR p))
  | none =>
    if s.slState p = slTrain then
      let s := s.reachAge (x.stepAt + x.stepLimit)
      if s.slState p = slTrain then .next (s.trainFail p) else .next s
    else .next s

/-! ## The energy book (R220) -/

/-- R220: a budget window starts; all links' windows start together, with the passing of time. -/
def execBudgetWindowStart (p : Fin 16) (s : State) : Host.Outcome State Fault Refusal :=
  .next ((s.reachMultiple 128000).modLink p id)

/-- R220: the tick whose level would bring USED above E_CAP, if it comes before the window ends. -/
def execCarrierCapCut (p : Fin 16) (s : State) : Host.Outcome State Fault Refusal :=
  let d := 125 - s.fine + 125 * (s.get (R.SL_ENERGY_REMAIN p) / s.level p)
  if s.level p ≠ 0 ∧ d < 128000 - s.time.toNat % 128000 then .next (s.elapse d) else .next s

/-! ## Access to pod registers (R230) -/

/-- Starts an access, or refuses it with ERR. -/
def State.access (s : State) (p : Fin 16) (ok : Bool) (cmd addr data : Nat) : State :=
  if ok && (s.slState p == slUp || s.slState p == slRealign) then
    let s := (s.sendFrame p cmd addr data).setFlag (R.SL_ACC_BUSY p) true
    s.modLink p fun x => { x with acc := some (x.seq, s.age) }
  else s.raise (R.SL_ACC_ERR p)

/-- R230: a write of SL_ACC.RD; while BUSY there is no second access. -/
def execSlAccRead (p : Fin 16) (a : Agent) (addr : BitVec 8) (s : State) : Host.Outcome State Fault Refusal :=
  if s.reaches a && !s.flag (R.SL_ACC_BUSY p) then
    .next ((s.set (R.SL_ACC_ADDR p) addr.toNat).access p true cmdRead addr.toNat 0)
  else .next s

/-- R230: a write of SL_ACC.WR, to ALARM alone. -/
def execSlAccWrite (p : Fin 16) (a : Agent) (addr : BitVec 8) (data : BitVec 16) (s : State) :
    Host.Outcome State Fault Refusal :=
  if s.reaches a && !s.flag (R.SL_ACC_BUSY p) then
    let s := (s.set (R.SL_ACC_ADDR p) addr.toNat).set (R.SL_ACC_DATA p) data.toNat
    .next (s.access p (addr == 5) cmdWrite addr.toNat data.toNat)
  else .next s

end Sys2Proof.Machine
end

