-- ==== Sys2Proof/Machine/Pods.lean ====
section
/-! DEFINITION. Daderal pods: registers, downlink frames, outputs, uplink words, the store, darkness, alarms and bursts
(Daderal Pods and Sprinrek Links). -/

namespace Sys2Proof.Machine

def State.pod (s : State) (p : Fin 16) : Pod := s.pods[p]
def State.modPod (s : State) (p : Fin 16) (f : Pod → Pod) : State := { s with pods := upd s.pods p f }
def State.modPodCh (s : State) (p : Fin 16) (c : Fin 4) (f : PodCh → PodCh) : State :=
  s.modPod p fun x => { x with ch := upd x.ch c f }

/-! ## Registers (R229) -/

/-- The value of a pod register at a rise of PG. -/
def podReset (a : Nat) : BitVec 16 :=
  if a = 0x03 then 0x64
  else if 0x10 ≤ a ∧ a < 0x20 then (if a % 4 = 1 then 0x0F else if a % 4 = 3 then 0xFFFF else 0)
  else 0

/-- The bits of a pod register that a WRITE replaces. -/
def podMask (a : Nat) : BitVec 16 :=
  if a = 0x02 then 3
  else if a = 0x03 then 0xFFFF
  else if a = 0x06 then 0xFF
  else if 0x10 ≤ a ∧ a < 0x20 then (if a % 4 = 0 then 1 else if a % 4 = 1 then 0xFF else if a % 4 = 2 then 0x3F else 0xFFFF)
  else 0

def Pod.reg (x : Pod) (a : Nat) : BitVec 16 := Cells.get (podReset a) a x.regs
def Pod.put (x : Pod) (a : Nat) (v : BitVec 16) : Pod := { x with regs := Cells.put (podReset a) a v x.regs }

def Pod.chOn (x : Pod) (c : Fin 4) : Bool := (x.reg (0x10 + 4 * c.val)).getLsbD 0
def Pod.chM (x : Pod) (c : Fin 4) : Nat := (x.reg (0x11 + 4 * c.val)).toNat + 1
def Pod.chPeriod (x : Pod) (c : Fin 4) : Nat := 500 * x.chM c * ((x.reg (0x12 + 4 * c.val)).toNat + 1)
def Pod.alarms (x : Pod) : BitVec 16 := x.reg 0x05
def Pod.sendAlarms (x : Pod) : BitVec 16 := x.alarms &&& x.reg 0x06
def Pod.darkMode (x : Pod) : Bool := (x.reg 0x02).getLsbD 0
def Pod.burstEn (x : Pod) : Bool := (x.reg 0x02).getLsbD 1

/-- The code of V_STORE: the clamp holds it at or below 3.40 V (R218). -/
def storeCode (live : PodLive) : Nat := min 170 live.vstore.toNat

/-- Is V_STORE at or above the transmit level of 2.60 V (R218)? -/
def canTransmit (live : PodLive) : Bool := decide (130 ≤ storeCode live)

/-- Register STATUS; CFG_OK is 0 while a parity error stands (CFG_ERR). -/
def Pod.status (x : Pod) (live : PodLive) : BitVec 16 :=
  BitVec.ofNat 16 (storeCode live + 2 ^ 8 * x.pg.toNat + 2 ^ 9 * x.meas.toNat + 2 ^ 10 * (canTransmit live).toNat
    + 2 ^ 11 * x.onAlt.toNat + 2 ^ 12 * live.alt.toNat + 2 ^ 13 * (!x.alarms.getLsbD 7).toNat)

/-- What READ returns. -/
def Pod.read (x : Pod) (live : PodLive) (a : Nat) : BitVec 16 :=
  if a = 0 then 0xD410
  else if a = 1 then 0x00A1
  else if a = 4 then x.status live
  else if a = 7 then BitVec.ofNat 16 (cfgCrc ((List.range 19).map fun k => x.reg (cfgAddr k)))
  else if a = 8 then live.temp
  else x.reg a

/-! ## Alarms (R227) -/

/-- Raises alarm bits; each new one that is enabled brings an ALARM word while the pod is locked. -/
def Pod.raise (x : Pod) (bits_ : BitVec 16) : Pod :=
  let new := bits_ &&& ~~~x.alarms &&& x.reg 0x06
  let n := ((List.range 8).filter fun i => new.getLsbD i).length
  let x := x.put 0x05 (x.alarms ||| bits_)
  if x.locked then { x with alarmWords := x.alarmWords + n } else x

/-! ## Downlink frames (R209 to R213) -/

/-- Does pod `p` take the frame as command `cmd`? -/
def State.takesFrame (s : State) (p : Fin 16) (f : BitVec 40) (cmd : Nat) : Bool :=
  (s.pod p).pg && (s.pod p).locked && frameOk f && f.toNat % 16 == cmd

def frameSeq (f : BitVec 40) : BitVec 4 := f.extractLsb' 4 4
def frameAddr (f : BitVec 40) : Nat := f.toNat / 2 ^ 8 % 256
def frameData (f : BitVec 40) : BitVec 16 := f.extractLsb' 16 16

/-- A control word waits. -/
def State.podSays (s : State) (p : Fin 16) (w : PodWord) : State := s.modPod p fun x => { x with waiting := x.waiting ++ [w] }

/-- R213: ALIGN. -/
def execAlign (p : Fin 16) (frame : BitVec 40) (s : State) : Host.Outcome State Fault Refusal :=
  if s.takesFrame p frame cmdAlign && decide (frameAddr frame < 4) then
    let c : Fin 4 := ⟨frameAddr frame % 4, Nat.mod_lt _ (by decide)⟩
    let n := (frameData frame).toNat
    let at_ := if n = 0 then s.age else s.gridAt 500 (s.age + 1) + 500 * (n - 1)
    .next (s.modPodCh p c fun x => { x with aligned := some s.age, next := some at_ })
  else .next s

/-- R209: ECHO. -/
def execEcho (p : Fin 16) (frame : BitVec 40) (s : State) : Host.Outcome State Fault Refusal :=
  if s.takesFrame p frame cmdEcho then .next (s.podSays p (.echoRsp (frameSeq frame))) else .next s

/-- A WRITE of a pod register: W1C of ALARM, the writable bits of the others; a channel that is enabled starts unaligned. -/
def Pod.write (x : Pod) (a : Nat) (v : BitVec 16) : Pod :=
  if a = 0x05 then x.put a (x.alarms &&& ~~~v)
  else if podMask a = 0 then x
  else
    let was := x.reg a
    let x := x.put a (v &&& podMask a)
    if 0x10 ≤ a ∧ a < 0x20 ∧ a % 4 = 0 ∧ was = 0 ∧ x.reg a = 1 then
      { x with ch := upd x.ch ⟨(a - 0x10) / 4 % 4, Nat.mod_lt _ (by decide)⟩ fun _ => {} }
    else x

/-- R209: WRITE. -/
def execDownlinkWrite (p : Fin 16) (frame : BitVec 40) (s : State) : Host.Outcome State Fault Refusal :=
  if s.takesFrame p frame cmdWrite then
    .next ((s.modPod p fun x => x.write (frameAddr frame) (frameData frame)).podSays p (.writeAck (frameSeq frame)))
  else .next s

/-- R209: READ. -/
def execDownlinkRead (p : Fin 16) (frame : BitVec 40) (live : PodLive) (s : State) : Host.Outcome State Fault Refusal :=
  if s.takesFrame p frame cmdRead then
    .next (s.podSays p (.readRsp (frameSeq frame) ((s.pod p).read live (frameAddr frame))))
  else .next s

/-- The registers take their reset values, every waiting word is discarded, and HELLO waits (R210, R218). -/
def Pod.restart (x : Pod) : Pod :=
  let x := { x with regs := [], ch := Vector.replicate 4 {}, alarmWords := 0, waiting := [.hello], word := none, statusDue := none }
  if x.meas then x else x.raise 0x10

/-- R210: RESET; with any other ADDR or DATA it is ignored. The alarm bits whose conditions persist are raised again; STORE_LOW
stands while the store is below the measure level. -/
def execDownlinkReset (p : Fin 16) (frame : BitVec 40) (still : BitVec 8) (s : State) : Host.Outcome State Fault Refusal :=
  if s.takesFrame p frame cmdReset && frameAddr frame == 0 && frameData frame == 0 then
    .next (s.modPod p fun x => x.restart.raise ((still &&& 0xEF).setWidth 16))
  else .next s

/-! ## Outputs (R212, R215, R217) -/

/-- Is an output at this instant unsettled, or was the store low, or did the internal oscillator run, in its window (R213,
R217, R226)? The window of a sinc³ filter reaches 3 × (M − 1) edges back. -/
def State.outputRough (s : State) (p : Fin 16) (c : Fin 4) : Bool :=
  let x := s.pod p
  match x.ch[c].aligned with
  | some t => decide (s.age < max t x.measAt + 1500 * (x.chM c - 1))
  | none => true

/-- Does |VALUE| reach the overload threshold (Alarms and active bursts)? -/
def Pod.overload (x : Pod) (c : Fin 4) (v : BitVec 24) : Bool :=
  decide ((x.reg (0x13 + 4 * c.val)).toNat ≤ v.toInt.natAbs / 256)

/-- A waiting sample word is replaced by a new one; UPL_DROP counts it, and stops without an event (log entry 129). -/
def Pod.queueSample (x : Pod) (c : Fin 4) (w : PodSample) : Pod :=
  let x := if x.ch[c].waiting.isSome then x.put 0x09 (if x.reg 0x09 = 0xFFFF then 0xFFFF else x.reg 0x09 + 1) else x
  { x with ch := upd x.ch c fun y => { y with waiting := some w } }

/-- R212: a transmitted output of channel `c`, with the overload of its window. A dark pod discards it. -/
def execPodOutput (p : Fin 16) (c : Fin 4) (value : BitVec 24) (overload : Bool) (s : State) :
    Host.Outcome State Fault Refusal :=
  let x := s.pod p
  if x.pg && x.meas && x.chOn c && !x.loadCut then
    let s := match x.ch[c].next with
      | some t => (s.reachAge t).modPodCh p c fun y => { y with next := some (t + x.chPeriod c) }
      | none => s
    let rough := s.outputRough p c
    let s := if x.overload c value then s.modPod p fun x => x.raise (BitVec.ofNat 16 (2 ^ c.val)) else s
    if x.dark.isSome then .next s
    else .next (s.modPod p fun x => x.queueSample c ⟨value, s.age, overload, rough⟩)
  else .next s

/-! ## Uplink (R214 to R216) -/

/-- The end of the word sent last. -/
def Pod.busyUntil (x : Pod) : Nat :=
  match x.word with
  | some (_, _, t) => t
  | none => 0

/-- PODQ of a sample word that starts at `t` (R217); `first` is the first boundary at or after its output. -/
def PodSample.podq (w : PodSample) (t first : Nat) : Nat :=
  if w.notReady then 3 else if w.overload then 2 else if first < t then 1 else 0

/-- Would a word that starts at `t` end before the next transmitted output of every enabled channel, save one that the output
after it replaces before then (R216)? Below the measure level there are no outputs. -/
def Pod.fits (x : Pod) (t : Nat) : Bool :=
  !x.meas || (fins 4).all fun c => !x.chOn c || (match x.ch[c].next with
    | some n => decide (t + 21250 < n) || decide (n + x.chPeriod c < t + 21250)
    | none => true)

/-- The control word of a waiting entry. -/
def Pod.control (x : Pod) (live : PodLive) (w : PodWord) : BitVec 32 :=
  match w with
  | .hello => mkControl 0x01 0xD410 0
  | .status => mkControl 0x02 (x.status live).toNat 0
  | .readRsp q d => mkControl 0x03 d.toNat q
  | .writeAck q => mkControl 0x04 0 q
  | .echoRsp q => mkControl 0x06 0 q

/-- The first channel whose sample word waits. -/
def Pod.firstSample (x : Pod) : Option (Fin 4 × PodSample) :=
  (fins 4).findSome? fun c => x.ch[c].waiting.map fun w => (c, w)

/-- Sends a word that starts at `t`. -/
def Pod.send (x : Pod) (sample : Bool) (body : BitVec 32) (t : Nat) : Pod := { x with word := some (sample, body, t + 21250) }

/-- Has STATUS waited 64 µs beyond its due instant at `t` (R216)? -/
def Pod.pressing (x : Pod) (t : Nat) : Bool :=
  match x.statusDue with
  | some d => x.waiting.contains .status && decide (d + 800000 ≤ t)
  | none => false

/-- STATUS starts at `t`. -/
def Pod.sendStatus (x : Pod) (live : PodLive) (t : Nat) : Pod :=
  { ({ x with waiting := x.waiting.erase .status }).send false (x.control live .status) t with statusAt := t, statusDue := none }

/-- The pod after it has started its next word at `t`; `first` gives the first boundary at or after an instant. -/
def Pod.next (x : Pod) (live : PodLive) (t : Nat) (first : Nat → Nat) : Option Pod :=
  if x.pressing t then some (x.sendStatus live t)
  else if x.alarmWords > 0 then
    some ({ x with alarmWords := x.alarmWords - 1 }.send false (mkControl 0x05 x.alarms.toNat 0) t)
  else match x.firstSample with
  | some (c, w) =>
    let body := w.value.toNat + 2 ^ 24 * c.val + 2 ^ 26 * w.podq t (first w.at_)
    some ({ x with ch := upd x.ch c fun y => { y with waiting := none } }.send true (mkWord body) t)
  | none => match x.waiting with
    | w :: rest =>
      if !x.fits t then none
      else if w = .status then some (x.sendStatus live t)
      else some (({ x with waiting := rest }).send false (x.control live w) t)
    | [] => none

/-- R215: at an uplink bit boundary, the idle pod starts its first waiting word. -/
def execUplinkWordStart (p : Fin 16) (live : PodLive) (s : State) : Host.Outcome State Fault Refusal :=
  let x := s.pod p
  let t := s.gridAt 625 (max s.age x.busyUntil)
  if x.pg && x.locked then
    match x.next live t (fun a => s.gridAt 625 a) with
    | some y => .next ((s.reachAge t).modPod p fun _ => y)
    | none => .next s
  else .next s

/-- R216: STATUS falls due 64 µs after the last one. -/
def execStatusDue (p : Fin 16) (s : State) : Host.Outcome State Fault Refusal :=
  let x := s.pod p
  if x.pg && x.locked && !x.waiting.contains .status then
    let s := s.reachAge (x.statusAt + 800000)
    .next ((s.modPod p fun y => { y with statusDue := some s.age }).podSays p .status)
  else .next s

/-! ## The store (R218) -/

/-- R218: V_STORE rises through PG, which lies above the measure level. -/
def execPodPgRise (p : Fin 16) (s : State) : Host.Outcome State Fault Refusal :=
  if (s.pod p).pg then .next s
  else .next (s.modPod p fun x =>
    ({ x with pg := true, meas := true, measAt := s.age, onAlt := false, loadCut := false, acted := false }).restart)

/-- R218: V_STORE falls below PG. -/
def execPodPgFall (p : Fin 16) (s : State) : Host.Outcome State Fault Refusal :=
  .next (s.modPod p fun x =>
    { x with pg := false, meas := false, regs := [], ch := Vector.replicate 4 {}, alarmWords := 0, waiting := [], word := none,
             onAlt := false, statusDue := none })

/-- The next transmitted output of each channel, when the modulators start again at `t`: on the grid of R212. -/
def Pod.rejoin (x : Pod) (t : Nat) : Pod :=
  { x with ch := Vector.ofFn fun (c : Fin 4) =>
      { x.ch[c] with next := x.ch[c].next.map fun n =>
          if t ≤ n then n else n + x.chPeriod c * ((t - n + x.chPeriod c - 1) / x.chPeriod c) } }

/-- R218: V_STORE crosses the measure level. -/
def execMeasureLevelCross (p : Fin 16) (above : Bool) (s : State) : Host.Outcome State Fault Refusal :=
  if (s.pod p).meas = above then .next s
  else if above then .next (s.modPod p fun x => { x.rejoin s.age with meas := true, measAt := s.age })
  else .next (s.modPod p fun x =>
    let x := { x with meas := false }
    if x.pg then x.raise 0x10 else x)

/-! ## Darkness (R225, R226) -/

/-- R225: no carrier for 200 ns; the pod is dark. -/
def execCarrierLoss (p : Fin 16) (s : State) : Host.Outcome State Fault Refusal :=
  if (s.pod p).dark.isSome then .next s
  else
    let s := if s.level p = 0 then s.reachAge ((s.link p).carrierAt + 2500) else s
    .next (s.modPod p fun x =>
      { x with dark := some s.age, acted := false, locked := false, alarmWords := 0,
               ch := Vector.replicate 4 {}, word := if s.age < x.busyUntil then none else x.word })

/-- R225: DARK_T has passed in darkness. -/
def execDarkTimeout (p : Fin 16) (live : PodLive) (s : State) : Host.Outcome State Fault Refusal :=
  let x := s.pod p
  match x.dark with
  | some t =>
    if x.pg && !x.acted then
      let s := s.reachAge (t + (x.reg 0x03).toNat * 125000)
      .next (s.modPod p fun x =>
        let x := { x with acted := true }
        if !x.darkMode then { x with loadCut := true }
        else if live.alt then { x with onAlt := true }
        else { x.raise 0x40 with loadCut := true })
    else .next s
  | none => .next s

/-- R226: the pod locks to the returned carrier. -/
def execPhaseLock (p : Fin 16) (s : State) : Host.Outcome State Fault Refusal :=
  if s.level p ≠ 0 ∧ (s.pod p).locked = false then
    .next (s.modPod p fun x =>
      let x := { x with dark := none, locked := true, lockAt := s.age, loadCut := false }
      if !x.pg then x
      else
        let x := if x.waiting.contains .hello then x else { x with waiting := x.waiting ++ [.status] }
        { x with alarmWords := if x.sendAlarms = 0 then 0 else 1 })
  else .next s

/-- R226: 64 µs after lock the pod stops drawing from ALT. -/
def execAltRelease (p : Fin 16) (s : State) : Host.Outcome State Fault Refusal :=
  if (s.pod p).onAlt && (s.pod p).locked then
    .next ((s.reachAge ((s.pod p).lockAt + 800000)).modPod p fun x => { x with onAlt := false })
  else .next s

/-! ## Alarms and bursts (R227, R228) -/

/-- ALT fails while the pod draws from it; in darkness the pod then acts as LOAD_CUT (R225). -/
def Pod.altFails (x : Pod) : Pod :=
  if x.onAlt then { x with onAlt := false, loadCut := x.loadCut || x.dark.isSome } else x

/-- R227: the pod raises alarm bits. -/
def execPodAlarmRaise (p : Fin 16) (bits_ : BitVec 8) (s : State) : Host.Outcome State Fault Refusal :=
  if (s.pod p).pg then
    .next (s.modPod p fun x => (if bits_.getLsbD 6 then x.altFails else x).raise (bits_.setWidth 16))
  else .next s

/-- R228: a dark pod starts an active burst. -/
def execActiveBurst (p : Fin 16) (live : PodLive) (s : State) : Host.Outcome State Fault Refusal :=
  let x := s.pod p
  match x.dark with
  | some t =>
    if x.pg && x.burstEn && x.sendAlarms != 0 && canTransmit live then
      let from_ := match x.burstAt with
        | some b => b + 12500000
        | none => 0
      let s := s.reachAge (max (t + 25000) from_)
      let body := mkControl 0x05 x.alarms.toNat 0
      .next (s.modPod p fun x => { x with burstAt := some s.age, burst := some (body ++ (0xACFF : BitVec 16)) })
    else .next s
  | none => .next s

end Sys2Proof.Machine
end

