-- ==== Sys2Proof/Machine/Reset.lean ====
section
/-! DEFINITION. RUN, the swap instant, owner fields, easel reset, and the rings at reset and enable (R51, R54, R72, R76, R109 to
R115, R147, R150, R151, R179, R376, R411). -/

namespace Sys2Proof.Machine

/-! ## RUN (R51, R54, R76, R371, R372, R411) -/

/-- The first downbeat for a RUN set now: the earliest candidate at least 12,500 fine ticks ahead, on the unwrapped line of
time. -/
def firstDownbeat (now : Time) (start : Time) (period : Nat) : Time :=
  let a : Int := (start - now).toNat
  let d := if a < 2 ^ 47 then a else a - 2 ^ 48
  let p : Int := max 1 period
  let j := max 0 (-((d - 12500) / p))
  now + BitVec.ofInt 48 (d + j * p)

def State.dbStart (s : State) (e : Fin 8) : Time :=
  BitVec.ofNat 48 (s.get2 (R.DB_START_HI_START_HI e) (R.DB_START_LO_START_LO e))

def State.inEaselReset (s : State) (e : Fin 8) : Bool := (s.ez e).reset.isSome

/-- Is a write of RUN = 1 ignored: easel reset, a fuse error, a failed self-test? -/
def State.runBlocked (s : State) (e : Fin 8) : Bool :=
  s.inEaselReset e || s.flag R.BOOT_STATUS_FUSE_ERR || s.bit R.BOOT_STATUS_BIST_FAIL e.val || s.run e

/-- RUN is set: admission, and the first downbeat. -/
def State.setRun (s : State) (e : Fin 8) : State :=
  if s.runBlocked e then s
  else
    let r := s.admission e (s.halfOf e)
    if r.1 && s.hasImage e then
      let s := (s.setFlag (R.SCHED_STATUS_ADM_OK e) true).setFlag (R.DB_CTRL_RUN e) true
      let s := s.setFlag (R.BRING_CTRL_PRELOAD e) false
      let t := firstDownbeat s.time (s.dbStart e) (s.get (R.DB_PERIOD_PERIOD e))
      s.modEz e fun z => { z with gen := some t, lastDb := if z.genLast.isSome then z.lastDb else none }
    else (s.setFlag (R.SCHED_STATUS_ADM_OK e) false).postEasel e 0x12 [0, arg r.2]

/-- R76: a write that sets RUN. -/
def execRunSet (e : Fin 8) (a : Agent) (s : State) : Host.Outcome State Fault Refusal :=
  if s.reachesWindow a e then .next (s.setRun e) else .next s

/-- RUN is cleared: a downbeat within 40 ns still fires, any later one does not. -/
def State.clearRun (s : State) (e : Fin 8) : State :=
  if s.run e then
    let s := s.setFlag (R.DB_CTRL_RUN e) false
    let soon := match (s.ez e).gen with
      | some t => !atLeastAfter ns40 s.time t
      | none => false
    let s := if soon then s.modEz e fun z => { z with gen := none, genLast := z.gen }
      else (s.modEz e fun z => { z with gen := none, lastDb := none }).dropPass e
    (s.wheelOwnerStops e).swapStopped e
  else s

/-- R54: a write that clears RUN. -/
def execRunClear (e : Fin 8) (a : Agent) (s : State) : Host.Outcome State Fault Refusal :=
  if s.reachesWindow a e then .next (s.clearRun e) else .next s

/-- R72: SWAP_TIME is reached, with a swap pending. -/
def execSwapTimeReached (s : State) : Host.Outcome State Fault Refusal :=
  if s.swapPending && !s.img.reached then .next (s.reach s.swapTime).swapReached else .next s

/-! ## Owner fields (R109, R110, R241) -/

/-- The easel that an owner nibble names. -/
def ownerOf (n : Nat) : Option (Fin 8) := if 8 ≤ n then some ⟨n % 8, Nat.mod_lt _ (by decide)⟩ else none

/-- Owner fields of the register at `a`: how many nibbles of it are owner fields. -/
def ownerNibbles (a : Nat) : Nat := if a = 0x3084 then 5 else if a = 0x308C then 2 else 8

/-- The easels that a change of an owner field makes unpredictable (R4, R110): present and new owner, where either runs. -/
def State.ownerErrors (s : State) (old new : Nat) : List (Fin 8) :=
  let es := (ownerOf old).toList ++ (ownerOf new).toList
  if old ≠ new ∧ es.any s.run = true then es else []

/-- The easels that a write of an owner register makes unpredictable (R110). -/
def State.ownerClash (s : State) (a old new : Nat) : List (Fin 8) :=
  (fins 8).filter fun e => (List.range (ownerNibbles a)).any fun k =>
    (s.ownerErrors (bits old (4 * k) 4) (bits new (4 * k) 4)).contains e

/-- The request of an auxiliary output that comes to a new owner is 0 (log entry 42). -/
def State.auxRequestGone (s : State) (a k n : Nat) : State :=
  match ownerOf n with
  | some e => s.modEz e fun z =>
    if a = 0x3084 then { z with outs := Cells.put 0 (if k < 4 then 0x24390 + k else 0x24395) 0 z.outs }
    else { z with outs := Cells.put 0 0x24394 (Cells.get 0 0x24394 z.outs &&& ~~~BitVec.ofNat 40 (2 ^ k)) z.outs }
  | none => s

/-- What follows the change of owner field `k` of the register at `a`. -/
def State.ownerMoved (s : State) (a k n : Nat) : State :=
  if a < 0x3020 then s.legOwnerChanged ⟨(2 * (a - 0x3000) + k) % 64, Nat.mod_lt _ (by decide)⟩
  else if a = 0x3084 ∨ a = 0x3088 then s.auxRequestGone a k n
  else if a = 0x308C ∧ k = 1 then
    (if (ownerOf n).isNone then s.setEpls false else s).modMtr fun t => { t with kept := [] }
  else s

/-- The register at `a` takes owner fields. -/
def State.setOwners (s : State) (a new : Nat) : State :=
  let old := (Cells.get 0 a s.regs).toNat
  let clash := s.ownerClash a old new
  let s := { s with regs := Cells.put 0 a (BitVec.ofNat 32 new) s.regs }
  let s := (List.range (ownerNibbles a)).foldl (fun s k =>
    if bits old (4 * k) 4 = bits new (4 * k) 4 then s else s.ownerMoved a k (bits new (4 * k) 4)) s
  s.hostErrors clash

/-- Is `a` the address of an owner register? -/
def isOwnerReg (a : Nat) : Bool :=
  (within a 0x3000 0x3054 || within a 0x3060 0x308C) && a % 4 == 0

/-- A write of an owner register, where an agent later in the order has not written it in the same coarse tick (R383); a
reserved bit written 1 is a host error. -/
def State.writeOwners (s : State) (by_ : Agent) (a : Nat) (value : BitVec 32) : State :=
  let s' := if s.overruled by_ a = 0 then (s.setOwners a (value.toNat &&& ownerMask a)).noteWrite by_ a (ownerMask a) else s
  let es := (fins 8).filter fun e => (List.range (ownerNibbles a)).any fun k =>
    ownerOf (bits (Cells.get 0 a s.regs).toNat (4 * k) 4) == some e || ownerOf (bits value.toNat (4 * k) 4) == some e
  if value.toNat ≤ ownerMask a then s' else if es.isEmpty then s'.globalError a else s'.hostErrors es

/-- R110: a write of an owner register. -/
def execOwnerWrite (a : Agent) (addr : BitVec 24) (value : BitVec 32) (s : State) : Host.Outcome State Fault Refusal :=
  if s.mayWrite a 2 && isOwnerReg addr.toNat then .next (s.writeOwners a addr.toNat value) else .next s

/-! ## Easel reset, steps 1 to 5 (R113) -/

/-- Every channel that easel `e` owns may be picked again. -/
def State.unpick (s : State) (e : Fin 8) : State :=
  { s with picked := Vector.ofFn fun (c : Fin 64) => if s.owner (R.OWN_PODCH c) = some e then none else s.picked[c] }

/-- Steps 1 to 5 of an easel reset: legs choked, RUN cleared, DMA and pairs stopped, outputs off, memory vacant. -/
def State.resetBegin (s : State) (e : Fin 8) (c : ResetCause) : State :=
  if s.inEaselReset e then s
  else
    let s := (s.setBit R.EASEL_RST_IN_RESET e.val true).modEz e fun z =>
      { z with reset := some c, unpredEnds := z.unpred, gen := none, genLast := none, lastDb := none }
    let s := (s.ownedLegs e fun l s => s.setCause l causeReset).setFlag (R.DB_CTRL_RUN e) false
    let s := (((s.dropPass e).stopPairs e).wheelOwnerStops e).swapStopped e
    let s := s.modEz e fun z =>
      { z with intake := .idle, intakeStale := false, intakeBad := false, accepted := 0, stOwed := false, poll := false, pollStale := false, outs := [], mem := [],
               taints := [], shadow := [], sysin := [], queue := [], btest := {} }
    let s := ((s.set (R.Q_STATUS_FILL e) 0).setFlag (R.BTEST_STATUS_BUSY e) false).setFlag (R.BTEST_STATUS_PARKED e) false
    s.unpick e

/-- May a reset of this cause start? From F0 or the safety port only while OWN is not locked (R386), and through registers only
outside device reset. -/
def State.resetAllowed (s : State) (c : ResetCause) : Bool :=
  !s.sup.inReset && (c != .f0OrSafetyPort || !s.locked 2)

/-- R113: a request for an easel reset. -/
def execEaselReset (e : Fin 8) (cause : ResetCause) (s : State) : Host.Outcome State Fault Refusal :=
  if s.resetAllowed cause then .next (s.resetBegin e cause) else .next s

/-! ## Easel reset, step 6 (R20, R179, R204, R241, R242, R385) -/

/-- A register returns to its reset value in the bits of a mask. -/
def State.restore (s : State) (a mask : Nat) : State :=
  let r := regReset a
  let old := (Cells.get (BitVec.ofNat 32 r) a s.regs).toNat
  { s with regs := Cells.put (BitVec.ofNat 32 r) a (BitVec.ofNat 32 (old - (old &&& mask) + (r &&& mask))) s.regs }

/-- The registers of window `e` take their reset values. -/
def State.restoreWindow (s : State) (e : Fin 8) : State :=
  { s with regs := s.regs.filter fun p => windowOf p.1 != some e }

/-- The fields of leg `l` that are the owner's, by register: LEG_CFG but HOLD_ACT, LEG_PER, LEG_PHS, LEG_MINP (R242). -/
def State.restoreLeg (s : State) (l : Fin 64) : State :=
  let s := ([R.LEG_CFG_CMODE l, R.LEG_PER_PERIOD l, R.LEG_PHS_CPHASE l, R.LEG_MINP_MINP l]).foldl (fun s f =>
    match findReg f.addr with
    | some r => s.restore f.addr r.rw
    | none => s) s
  ((s.clearDuty l).modLeg l fun g => { g with gh := false, gl := false }).clearCause l causeHrd

/-- The pod channels of easel `e` that deliver copies to the metering engine, with their group delay. -/
def State.mtrChannels (s : State) (e : Fin 8) : List (Fin 64 × Nat) :=
  (fins 64).filterMap fun (c : Fin 64) => if s.owner (R.OWN_PODCH c) == some e && s.flag (R.POD_MRG_EN c) && s.flag (R.POD_MRG_MTR c) then
    some (c, s.get (R.POD_PGD_PGD c)) else none

/-- The pair and pod-merge blocks that easel `e` owns take their reset values; CAL_A and CAL_B keep theirs (R204). The pod
copies of the meter easel go on (R314, log entry 121). -/
def State.restoreConv (s : State) (e : Fin 8) : State :=
  let s := if s.ownerMeter = some e then
    { s with mtr := { s.mtr with kept := s.mtr.kept ++ s.mtrChannels e } } else s
  let s := forAll 8 (fun p s => if s.pairOwner p = some e then
    (List.range 64).foldl (fun s i => if within (4 * i) 0xC0 0xC4 then s
      else s.restore (0x6000 + 0x100 * p.val + 4 * i) 0xFFFFFFFF) s else s) s
  forAll 64 (fun c s => if s.owner (R.OWN_PODCH c) = some e then
    (List.range 4).foldl (fun s i => s.restore (0x7000 + 0x10 * c.val + 4 * i) 0xFFFFFFFF) s else s) s

/-- What an easel reset makes of a pending transaction (R179). -/
def keepTxn (abort : Bool) (g : List LEntry) : List LEntry :=
  let at_ := match g with
    | x :: _ => x.desc.atEn
    | [] => false
  g.map fun x =>
    let x := { x with resv := false, replay := true, late := x.late || at_ }
    if abort then x.abort else x

/-- The ledger after an easel reset: ended entries gone, pending ones without reservations. -/
def Easel.ledgerKept (z : Easel) (abort : Bool) : List LEntry := ((z.pendingTxns.map Prod.snd).map (keepTxn abort)).flatten

/-- The easel after step 6: everything but the ledger starts anew. -/
def Easel.renewed (z : Easel) (abort : Bool) : Easel :=
  { ledger := z.ledgerKept abort, ret := z.cmt, lastTag := z.lastTag, aborts := z.aborts, resumeAt := z.resumeAt,
    unpred := z.unpred && !z.unpredEnds }

/-- The cause as EASEL_RESET_DONE reports it. -/
def resetCode (c : ResetCause) : Nat :=
  match c with
  | .f0OrSafetyPort => 0
  | .erstCtrl => 1
  | .watchdog => 2
  | .functionLevelReset => 3

/-- The MPPT strings of easel `e` restart (R294). -/
def State.restartStrings (s : State) (e : Fin 8) : State :=
  forAll 8 (fun k s => if s.owner (R.MP_CTRL_OWNER k) = some e then s.mpRestart k else s) s

/-- Step 6 of an easel reset. -/
def State.resetEnd (s : State) (e : Fin 8) (c : ResetCause) : State :=
  let s := (s.restoreWindow e).restoreConv e
  let s := (s.ownedLegs e fun l s => s.restoreLeg l).restartStrings e
  let abort := s.flag (R.LDG_CTRL_ERST_POLICY e)
  let s := s.modEz e fun z => z.renewed abort
  let s := { s with sup := { s.sup with halted := s.sup.halted &&& ~~~BitVec.ofNat 8 (2 ^ e.val) } }
  let s := s.setBit R.EASEL_RST_IN_RESET e.val false
  let s := if s.bmeOf e && s.dlActive then s.sendMsix (fnOf e) 0 else s
  (s.postF0For (some e) 0x32 [0, arg (resetCode c)]).postEasel e 0x32 [0, arg (resetCode c)]

/-- R113: step 6 of the easel reset in progress. -/
def execEaselResetComplete (e : Fin 8) (s : State) : Host.Outcome State Fault Refusal :=
  match (s.ez e).reset with
  | some c => .next (s.resetEnd e c)
  | none => .next s

/-! ## The transparent test, rings, preload (R127, R147, R151, R376) -/

/-- The test goes on at the next region. -/
def State.testResume (s : State) (e : Fin 8) : State :=
  if s.flag (R.BTEST_STATUS_PARKED e) then (s.setFlag (R.BTEST_STATUS_PARKED e) false).regionNext e else s

/-- R127: a write of RESUME. -/
def execBtestResume (e : Fin 8) (a : Agent) (s : State) : Host.Outcome State Fault Refusal :=
  if s.reachesWindow a e then .next (s.testResume e) else .next s

/-- The mask of valid checkpoint records (R368). -/
def State.checkpointMask (s : State) : Nat :=
  (fins 8).foldl (fun m (e : Fin 8) => if s.flag (R.CK_INFO_VALID e) then m + 2 ^ e.val else m) 0

/-- F0_RING_CTRL.EN changes; the first enable after device reset posts BOOT_REPORT (R348). -/
def State.setF0En (s : State) (on : Bool) : State :=
  let was := s.flag R.F0_RING_CTRL_EN
  let s := s.setFlag R.F0_RING_CTRL_EN on
  if on && !was then
    let s := { s.set R.F0_RING_STATUS_EVT_TAIL 0 with f0 := { s.f0 with head := 0, gaps := 0 }, f0PollFrom := s.age }
    if s.sup.bootReport then
      ({ s with sup := { s.sup with bootReport := false } }).postF0 0x806
        [arg (s.word R.RST_CAUSE_POR).toNat, arg (s.get R.NRST_HELD_SECONDS), arg s.checkpointMask]
    else s
  else if !on then { s with f0PollStale := s.f0PollStale || s.f0Poll } else s

/-- R147: a write of F0_RING_CTRL.EN. -/
def execF0RingEn (a : Agent) (on : Bool) (s : State) : Host.Outcome State Fault Refusal :=
  if s.reaches a then .next (s.setF0En on) else .next s

/-- A Function Level Reset of an easel's function: Bus Master Enable clears, which is a link fault of that function (R147), and
the easel resets. -/
def State.flrEasel (s : State) (e : Fin 8) : State :=
  let was := s.bmeOf e
  let s := { s with bme := s.bme &&& ~~~BitVec.ofNat 9 (2 ^ (e.val + 1)) }.resetFn (fnOf e)
  (if was then s.linkFault [e] else s).resetBegin e .functionLevelReset

/-- A Function Level Reset of F0. -/
def State.flrF0 (s : State) : State :=
  let s := { s with bme := s.bme &&& 0x1FE, f0PollStale := s.f0PollStale || s.f0Poll }.resetFn 0
  let s := s.setFlag R.F0_RING_CTRL_EN false
  if s.img.stage = .idle then s else s.loadEnd 4 0

/-- R151: a Function Level Reset. -/
def execFunctionLevelReset (fn : Fin 9) (s : State) : Host.Outcome State Fault Refusal :=
  if s.sup.inReset then .next s
  else if h : fn.val = 0 then .next s.flrF0 else .next (s.flrEasel ⟨fn.val - 1, by omega⟩)

/-- R376: a write of PRELOAD, which is taken only while RUN is 0. -/
def execPreload (e : Fin 8) (a : Agent) (on : Bool) (s : State) : Host.Outcome State Fault Refusal :=
  if s.reachesWindow a e && !s.run e then .next (s.setFlag (R.BRING_CTRL_PRELOAD e) on) else .next s

end Sys2Proof.Machine
end

