-- ==== Sys2Proof/Machine/RingCommands.lean ====
section
/-! DEFINITION. DMA as it is served: the ranks of requests and the turns of the functions (R145), descriptor reads, periodic
reads of the heads, completions and staged entries (Rings and Doorbells in Host Memory). -/

namespace Sys2Proof.Machine

/-! ## Which requests wait (R145); ranks 1 to 5, highest first -/

/-- The easel of a function; none: F0. -/
def easelOf (g : Fin 9) : Option (Fin 8) := if h : g.val = 0 then none else some ⟨g.val - 1, by omega⟩

/-- Can the first staged event of easel `e` move to its ring: two free slots (R144)? -/
def State.eventReady (s : State) (e : Fin 8) : Bool :=
  !(s.ez e).evt.entries.isEmpty && s.mayDma e && decide
    (2 ≤ ringFree (s.get (R.RING_SIZE_EVT_LOG2 e)) (BitVec.ofNat 16 (s.get (R.RING_IDX1_EVT_TAIL e))) (s.ez e).evt.head)

def State.sampleReady (s : State) (e : Fin 8) : Bool :=
  !(s.ez e).smp.entries.isEmpty && s.mayDma e && decide
    (2 ≤ ringFree (s.get (R.RING_SIZE_SMP_LOG2 e)) (BitVec.ofNat 16 (s.get (R.RING_IDX1_SMP_TAIL e))) (s.ez e).smp.head)

def State.f0Ready (s : State) : Bool :=
  !s.f0.entries.isEmpty && s.f0Served && decide
    (2 ≤ ringFree (s.get R.F0_RING_CTRL_EVT_LOG2) (BitVec.ofNat 16 (s.get R.F0_RING_STATUS_EVT_TAIL)) s.f0.head)

/-- Does a completion, or ST_CPL, wait? -/
def State.completionReady (s : State) (e : Fin 8) : Bool := s.mayDma e && (!(s.ez e).writable.isEmpty || (s.ez e).stOwed)

/-- Is the periodic read of the heads due (R141)? Another one has come back before. -/
def State.pollDue (s : State) (e : Fin 8) : Bool :=
  s.mayDma e && !(s.ez e).poll && decide ((s.ez e).pollFrom + 128000 ≤ s.age)

def State.f0PollDue (s : State) : Bool := s.f0Served && !s.f0Poll && decide (s.f0PollFrom + 128000 ≤ s.age)

/-- Does a request of a rank wait at function `g`? Intake reads issue as they arise and never wait. -/
def State.waitsAt (s : State) (g : Fin 9) (rank : Nat) : Bool :=
  match easelOf g with
  | some e =>
    if rank = 1 then s.pollDue e else if rank = 2 then s.completionReady e else if rank = 3 then s.eventReady e
    else if rank = 4 then s.sampleReady e else false
  | none => if rank = 1 then s.f0PollDue else if rank = 3 then s.f0Ready else false

/-- The highest-ranked request that waits at function `g` above a rank. -/
def State.firstRank (s : State) (g : Fin 9) (below : Nat) : Option Nat :=
  [1, 2, 3, 4].find? fun k => decide (k < below) && s.waitsAt g k

/-! ## Serving a request -/

/-- The instant of the last periodic read at or before now, from the one before it. -/
def lastPoll (from_ now : Nat) : Nat := from_ + 128000 * ((now - from_) / 128000)

/-- The periodic read of the heads of easel `e` issues. -/
def State.issuePoll (s : State) (e : Fin 8) : State :=
  (s.modEz e fun z => { z with poll := true, pollStale := false, pollFrom := lastPoll z.pollFrom s.age }).sendRead (s.hcb e 8) 24

/-- The periodic read of HD_EVT of F0 issues. -/
def State.issueF0Poll (s : State) : State :=
  ({ s with f0Poll := true, f0PollStale := false, f0PollFrom := lastPoll s.f0PollFrom s.age }).sendRead
    (BitVec.ofNat 64 (s.get2 R.F0_HCB_HI_ADDR_HI R.F0_HCB_LO_ADDR_LO + 0x10)) 8

/-- Function `g` serves its request of a rank. -/
def State.request (s : State) (g : Fin 9) (rank : Nat) : State :=
  match easelOf g with
  | some e =>
    if rank = 1 then s.issuePoll e
    else if rank = 2 then s.writeCompletions e
    else if rank = 3 then match (s.ez e).evt.entries with
      | x :: _ => s.drainEvent e x
      | [] => s
    else if rank = 4 then match (s.ez e).smp.entries with
      | x :: _ => s.drainSample e x
      | [] => s
    else s
  | none =>
    if rank = 1 then s.issueF0Poll
    else if rank = 3 then match s.f0.entries with
      | x :: _ => s.drainF0 x
      | [] => s
    else if rank = 5 then s.sendRead s.img.src s.img.len
    else s

/-! ## Turns of the functions: one request each (R145) -/

/-- The link while a request is awaited: the state, what each function still sends of the request it serves, and whether the
awaited request has begun. -/
structure Turns where
  s : State
  queues : Vector (List HostMsg) 9
  begun : Bool

/-- Function `g` begins a request: its messages wait for the turns of `g`. -/
def Turns.begin_ (x : Turns) (g : Fin 9) (rank : Nat) : Turns :=
  let t := { x.s with outbox := [] }.request g rank
  { x with s := { t with outbox := x.s.outbox }, queues := x.queues.set g.val t.outbox g.isLt }

/-- A turn of function `g`, while request `rank` of function `f` is awaited: `g` begins its highest-ranked request if it has none
in hand, and sends one message. -/
def Turns.take (f : Fin 9) (rank : Nat) (x : Turns) (g : Fin 9) : Turns :=
  let x := if !x.queues[g].isEmpty || (x.begun && x.queues[f].isEmpty) || (g == f && x.begun) then x
    else match x.s.firstRank g (if g = f then rank else 5) with
      | some k => x.begin_ g k
      | none => if g = f then { x.begin_ g rank with begun := true } else x
  match x.queues[g] with
  | m :: l => { x with s := { x.s with outbox := x.s.outbox ++ [m], turn := g }, queues := x.queues.set g.val l g.isLt }
  | [] => x

/-- The functions in the order of their turns, from the one behind the function served last. -/
def turnsAfter (g : Fin 9) : List (Fin 9) := (List.range 9).map fun i => Fin.ofNat 9 (g.val + 1 + i)

/-- Rounds of turns, until the awaited request and every request begun beside it have gone out. -/
def Turns.rounds (f : Fin 9) (rank : Nat) : Nat → Turns → Turns
  | 0, x => { x with s := { x.s with outbox := x.s.outbox ++ x.queues.toList.flatten } }
  | n + 1, x =>
    if x.begun && x.queues.toList.all List.isEmpty then x
    else Turns.rounds f rank n ((turnsAfter x.s.turn).foldl (Turns.take f rank) x)

/-- Does no request wait that has its turn with, or before, a request of this rank of function `f`? -/
def State.linkFree (s : State) (f : Fin 9) (rank : Nat) : Bool :=
  (fins 9).all fun g => (s.firstRank g (if g = f then rank else 5)).isNone

/-- A request of function `f` is served, after its higher-ranked ones and among the turns of the other functions. -/
def State.serve (s : State) (f : Fin 9) (rank : Nat) : State :=
  if s.linkFree f rank then { s.request f rank with turn := f }
  else (Turns.rounds f rank 10000 ⟨s, Vector.replicate 9 [], false⟩).s

/-! ## Intake (R139, R141) -/

/-- The descriptor reads of an intake issue at their instant, unless an outage ends the intake first. -/
def State.issueReads (s : State) (e : Fin 8) : State :=
  match (s.ez e).intake with
  | .fetch _ =>
    let s := s.reachAge (s.ez e).issueAt
    match (s.ez e).intake with
    | .fetch reads => reads.foldl (fun s r => s.sendRead r.1 (64 * r.2)) (s.modEz e fun z => { z with intake := .descs reads })
    | _ => s
  | _ => s

/-- R139: the doorbell read of an intake completes, with four words of the host control block, or fails. -/
def execDoorbellReadComplete (e : Fin 8) (hcb : Option (Vector (BitVec 64) 4)) (s : State) :
    Host.Outcome State Fault Refusal :=
  match (s.ez e).intake with
  | .doorbell preload =>
    if (s.ez e).intakeStale then .next (s.modEz e fun z => { z with intake := .idle, intakeStale := false })
    else match hcb with
      | some w => .next (s.doorbellTaken e preload w)
      | none => .next (((s.intakeFail e).reportAer (fnOf e)).intakeEnd e)
  | _ => .next s

/-- The outstanding reads after the next descriptor of the first has come. -/
def nextSlot (l : List (BitVec 64 × Nat)) : List (BitVec 64 × Nat) :=
  match l with
  | (a, n) :: t => if n ≤ 1 then t else (a + 64, n - 1) :: t
  | [] => []

/-- R139: the 64th byte of a descriptor arrives intact, in ring order; behind a failed read none is accepted (R141). -/
def execDescriptorAccept (e : Fin 8) (d : Vector (BitVec 64) 8) (s : State) : Host.Outcome State Fault Refusal :=
  let s := s.issueReads e
  match (s.ez e).intake with
  | .descs l =>
    let s := if (s.ez e).intakeStale || (s.ez e).intakeBad then s else s.accept e d
    .next (s.readsLeft e (nextSlot l))
  | _ => .next s

/-- R141: the oldest outstanding read of an intake fails or returns poisoned data; a failure that an outage explains is not
counted. -/
def execDmaReadFail (e : Fin 8) (s : State) : Host.Outcome State Fault Refusal :=
  let s := s.issueReads e
  match (s.ez e).intake with
  | .doorbell _ =>
    if (s.ez e).intakeStale then .next (s.intakeEnd e) else .next (((s.intakeFail e).reportAer (fnOf e)).intakeEnd e)
  | .descs l =>
    if (s.ez e).intakeStale then .next (s.readsLeft e l.tail)
    else .next (((s.intakeFail e).reportAer (fnOf e)).readsLeft e l.tail)
  | _ => .next s

/-! ## Periodic reads of the heads (R141) -/

/-- R141: the periodic read of the heads, 1,024 coarse ticks after the one before or after the enable. -/
def execHeadPoll (ring : RingId) (s : State) : Host.Outcome State Fault Refusal :=
  match ring with
  | .easel e =>
    if !s.mayDma e || (s.ez e).poll then .next s
    else
      let s := s.reachAge ((s.ez e).pollFrom + 128000)
      .next (if s.mayDma e then s.serve (fnOf e) 1 else s)
  | .f0 =>
    if !s.f0Served || s.f0Poll then .next s
    else
      let s := s.reachAge (s.f0PollFrom + 128000)
      .next (if s.f0Served then s.serve 0 1 else s)

/-- R141: a periodic read of the heads completes, or fails without effect but on error reporting. -/
def execHeadPollComplete (ring : RingId) (heads : Option (Vector (BitVec 64) 3)) (s : State) :
    Host.Outcome State Fault Refusal :=
  match ring with
  | .easel e =>
    let ok := (s.ez e).poll && !(s.ez e).pollStale
    let was := (s.ez e).poll
    let s := s.modEz e fun z => { z with poll := false, pollStale := false }
    match heads with
    | some w => .next (if ok then s.takeHeads e w[0] w[1] w[2] else s)
    | none => .next (if was then s.reportAer (fnOf e) else s)
  | .f0 =>
    let ok := s.f0Poll && !s.f0PollStale
    let was := s.f0Poll
    let s := { s with f0Poll := false, f0PollStale := false }
    match heads with
    | some w =>
      if ok then
        let bad := headBad (w[1].setWidth 16) s.f0.head (BitVec.ofNat 16 (s.get R.F0_RING_STATUS_EVT_TAIL))
          || w[1].ushiftRight 16 != 0
        let s := { s with f0 := { s.f0 with head := w[1].setWidth 16 } }
        .next (if bad then s.globalError R.F0_RING_STATUS_EVT_TAIL.addr else s)
      else .next s
    | none => .next (if was then s.reportAer 0 else s)

/-! ## Completions and staging (R143, R144) -/

/-- R143: the queued completion entries are written in ledger order, then ST_CPL, then the message; their transactions
retire (R172). -/
def execCompletionWrite (e : Fin 8) (s : State) : Host.Outcome State Fault Refusal :=
  if s.completionReady e then .next (s.serve (fnOf e) 2) else .next s

/-- R144: a staged entry moves to its ring while the ring has at least two free slots and no outage exists. -/
def execStagingDrain (ring : RingId) (kind : StageKind) (s : State) : Host.Outcome State Fault Refusal :=
  match ring, kind with
  | .easel e, .event => if s.eventReady e then .next (s.serve (fnOf e) 3) else .next s
  | .easel e, .sample => if s.sampleReady e then .next (s.serve (fnOf e) 4) else .next s
  | .f0, .event => if s.f0Ready then .next (s.serve 0 3) else .next s
  | .f0, .sample => .next s

/-! ## Image load (R71): the lowest rank of F0 -/

/-- R71: the DMA read of a load has had its turns and ends: with the words read, which are written into the shadow half, or with
an error. -/
def execImageDmaComplete (data : Option (List (BitVec 64))) (s : State) : Host.Outcome State Fault Refusal :=
  if s.img.stage = .dma then
    let s := s.serve 0 5
    match data with
    | some ws =>
      let ws := ws.take ((s.img.len + 7) / 8)
      .next { s with img := if s.activeHalf then { s.img with half0 := ws, stage := .verify }
                            else { s.img with half1 := ws, stage := .verify } }
    | none => .next ((s.loadEnd 4 0).reportAer 0)
  else .next s

end Sys2Proof.Machine
end

