-- ==== Sys2Proof/Machine/Supervision.lean ====
section
/-! DEFINITION. Supplies and hold, device reset and boot, the backup domain, watchdogs, the cross-monitor, KILL, keys, debug and
locks (Supplies, Watchdogs, Reset and Safety; Start-Up; R387). -/

namespace Sys2Proof.Machine

def State.modSup (s : State) (f : Sup → Sup) : State := { s with sup := f s.sup }

/-! ## Hold (R183, R342 to R344) -/

/-- The checkpoint record of easel `e` (R183). -/
def State.checkpoint (s : State) (e : Fin 8) : State :=
  let z := s.ez e
  let oldest := z.ledger.find? fun x => x.st == .pending
  let idx := match oldest with
    | some x => x.cmdIdx.toNat
    | none => 0
  let tag := match oldest with
    | some x => x.desc.tag.toNat
    | none => 0
  let s := (s.set (R.CK_TIME_LO_TIME_LO e) s.time.toNat).set (R.CK_TIME_HI_TIME_HI e) (s.time.toNat / 2 ^ 32)
  let s := (s.set (R.CK_TIME_HI_LAST_TAG e) z.lastTag.toNat).set (R.CK_LAST_LO_DB_LO e) (s.get (R.LDG_LAST_LO_DB_LO e))
  let s := (s.set (R.CK_LAST_HI_DB_HI e) (s.get (R.LDG_LAST_HI_DB_HI e))).set (R.CK_LAST_HI_LAST_CMD_IDX e)
    (s.get (R.LDG_LAST_HI_CMD_IDX e))
  let s := (s.set (R.CK_PEND_OLDEST_CMD_IDX e) idx).set (R.CK_PEND_OLDEST_TAG e) tag
  let s := (s.set (R.CK_INFO_PENDING e) z.pendingCount).bumpK (R.CK_INFO_SEQ e)
  (s.raise (R.CK_INFO_VALID e)).setFlag (R.CK_INFO_RESET_AFTER e) false

/-- The pass in progress is discarded at hold entry; one that raised a fault still closes with it (R36, R105). -/
def State.holdPass (s : State) (e : Fin 8) : State :=
  match (s.ez e).pass with
  | some p => if p.fault.isSome then s.killRuns e else (s.dropPass e).modEz e fun z => { z with goodFinals := 0 }
  | none => s

/-- What hold entry does to easel `e`. -/
def State.holdEasel (s : State) (e : Fin 8) : State :=
  (((s.testPause e).holdPass e).checkpoint e).modEz e fun z => { z with resumeAt := none }

/-- Entry into supply hold. -/
def State.holdEnter (s : State) : State :=
  let s := (s.setFlag R.SUP_STATUS_HOLD true).bumpS R.SUP_STATUS_HOLD_CNT
  let s := s.postAll 0x800 [arg (s.get R.SUP_STATUS_LOW), arg (s.get R.SUP_STATUS_HOLD_CNT)]
  let s := forAll 64 (fun l s => if s.flag (R.LEG_CFG_HOLD_ACT l) then s else s.setCause l causeHold) s
  (forAll 8 (fun e s => s.holdEasel e) s).modSup fun x => { x with holdAt := s.age }

/-- Hold ends at the qualification instant: each easel that runs waits for its resume downbeat, and the legs of the others
lose the HOLD cause. -/
def State.holdEnd (s : State) : State :=
  let s := (s.setFlag R.SUP_STATUS_HOLD false).postAll 0x801 [0, arg ((s.age - s.sup.holdAt) / 12500)]
  let s := forAll 8 (fun e s => if s.run e then s.modEz e fun z => { z with resumeAt := some s.age } else s) s
  forAll 64 (fun l s => match s.ownerLeg l with
    | some e => if s.run e then s else s.clearCause l causeHold
    | none => s.clearCause l causeHold) s

/-! ## Supplies (R340, R341) -/

/-- Is this level below the warning level? -/
def lowLevel (x : SupplyLevel) : Bool := x == .belowReset || x == .belowWarning

/-- A supply stands at a level; it stays restored only at or above its resume level. -/
def State.setSupply (s : State) (k : Fin 4) (x : SupplyLevel) (restored : Bool) : State :=
  let old := s.sup.supplies[k]
  let s := s.modSup fun u =>
    { u with supplies := upd u.supplies k fun _ => x, restored := upd u.restored k fun _ => restored,
             lowFrom := upd u.lowFrom k fun t => if lowLevel x then (if lowLevel old then t else some s.age) else none,
             upFrom := upd u.upFrom k fun t => if x = .aboveResume then (if old = .aboveResume then t else some s.age) else none,
             releaseFrom := if old = .belowReset ∧ x ≠ .belowReset then some s.age else u.releaseFrom }
  if k = 3 then s.vanaCross (lowLevel x) else s

/-- An interval of R340 counted on WDOSC, which lies within 5 % of its rate: anything from 95 to 105 % of its nominal length (R350,
R393). -/
def State.onWdosc (s : State) (nominal : Nat) : Nat := nominal * 95 / 100 + Config.freeNat s.freeCount % (nominal / 10 + 1)

/-- Out of reset, a supply that is low shows in LOW; out of hold, the device enters hold. -/
def State.supplyLowNow (s : State) (k : Fin 4) : State :=
  let s := (s.modSup fun u => { u with restored := upd u.restored k fun _ => false }).setBit R.SUP_STATUS_LOW k.val true
  if s.hold then s else s.holdEnter

/-- R342: a supply has been below its warning level for 200 ns and becomes low; out of hold, the device enters hold. -/
def execSupplyHoldEnter (k : Fin 4) (s : State) : Host.Outcome State Fault Refusal :=
  match s.sup.lowFrom[k] with
  | some t =>
    if s.sup.inReset then .next s else .next (((s.draw).reachAge (t + s.onWdosc 2500)).supplyLowNow k)
  | none => .next s

/-- A supply is restored; the last one ends a hold. -/
def State.supplyRestored (s : State) (k : Fin 4) : State :=
  let s := (s.modSup fun u => { u with restored := upd u.restored k fun _ => true }).setBit R.SUP_STATUS_LOW k.val false
  if s.hold && (fins 4).all (fun (j : Fin 4) => s.sup.restored[j]) then s.holdEnd else s

/-- A supply that has stayed at or above its resume level completes its 20 µs. -/
def State.resumeInterval (s : State) (k : Fin 4) : State :=
  match s.sup.upFrom[k] with
  | some t => if s.sup.restored[k] then s else ((s.draw).reachAge (t + s.onWdosc 250000)).supplyRestored k
  | none => s

/-- R344: the last supply completes its resume interval, which is the qualification instant. -/
def execSupplyResume (k : Fin 4) (s : State) : Host.Outcome State Fault Refusal := .next (s.resumeInterval k)

/-- R340: a supply completes its resume interval. -/
def execSupplyRestored (k : Fin 4) (s : State) : Host.Outcome State Fault Refusal := .next (s.resumeInterval k)

/-- R340, R341: a supply crosses a monitor level. -/
def execSupplyLevelCross (k : Fin 4) (level : SupplyLevel) (s : State) : Host.Outcome State Fault Refusal :=
  .next (s.setSupply k level (level == .aboveResume && s.sup.restored[k]))

/-! ## Device reset (R182, R184, R347 to R349, R385, R412) -/

/-- The registers that device reset leaves: the bits of the backup domain. -/
def backupRegs (m : Cells Reg) : Cells Reg :=
  m.foldl (fun (l : Cells Reg) (p : Nat × Reg) =>
    let k := regBackup p.1
    let r := regReset p.1
    Cells.put (BitVec.ofNat 32 r) p.1 (BitVec.ofNat 32 (r - (r &&& k) + (p.2.toNat &&& k))) l) []

/-- The bit of RST_CAUSE of a cause. -/
def resetField (c : DeviceResetCause) : Fld :=
  match c with
  | .por => R.RST_CAUSE_POR
  | .supply => R.RST_CAUSE_SUPPLY
  | .nrst => R.RST_CAUSE_NRST
  | .dwd => R.RST_CAUSE_DWD

/-- The links at device reset: every carrier off (R231, R349). -/
def State.linksReset (s : State) : Vector Link 16 :=
  Vector.ofFn fun (p : Fin 16) =>
    { carrierAt := if s.get (R.SL_STATUS_LEVEL p) = 0 then (s.link p).carrierAt else s.age, frameEnd := 0 }

/-- The level of a FLT ball. -/
def State.fltPin (s : State) (l : Fin 64) : Bool := s.flag (R.LEG_STATUS_FLT_IN l) != s.flag (R.LEG_FLT_FLT_POL l)

/-- The state that device reset leaves: what lies outside the device, in the backup domain or in fuses stays. -/
def State.wiped (s : State) : State :=
  { pending := s.pending, regs := backupRegs s.regs, age := s.age, fuses := { s.fuses with burn := none }, ain := s.ain, pods := s.pods,
    links := s.linksReset,
    aux := { fans := s.aux.fans.map fun x => { pin := x.pin, pinAt := s.age, level := x.pin } },
    mtr := { residue := s.mtr.residue, bkPhase := s.mtr.bkPhase, bkCounted := s.mtr.bkCounted,
             eplsAt := if s.mtr.epls then some s.age else s.mtr.eplsAt },
    sup := { inReset := true, supplies := s.sup.supplies, restored := s.sup.restored, nrst := s.sup.nrst,
             vanaLow := s.sup.vanaLow, lowFrom := s.sup.lowFrom, upFrom := s.sup.upFrom,
             releaseFrom := s.sup.releaseFrom, vbatMv := s.sup.vbatMv },
    unpredRegs := s.unpredRegs.filter fun a => regBackup a != 0, outbox := s.outbox, freeCount := s.freeCount }

/-- Device reset starts. -/
def State.resetDevice (s : State) (c : DeviceResetCause) : State :=
  let t := s.wiped
  let t := t.setFlag (resetField c) true
  let t := forAll 8 (fun (e : Fin 8) t => if t.flag (R.CK_INFO_VALID e) then t.raise (R.CK_INFO_RESET_AFTER e) else t) t
  let t := forAll 64 (fun l t => t.setFlag (R.LEG_STATUS_FLT_IN l) (s.fltPin l != t.flag (R.LEG_FLT_FLT_POL l))) t
  let t := t.setFlag R.SAFE_STATUS_KILL_IN (s.flag R.SAFE_STATUS_KILL_IN)
  if c = .nrst then (t.set R.NRST_HELD_SECONDS 0).modSup fun u => { u with nrst := true } else t

/-- 1 ms after a fault of the device watchdog with RST = 1, device reset starts (R354). -/
def State.dwdResets (s : State) : State :=
  match s.sup.dwdReset with
  | some t => (s.reachAge (t + 12500000)).resetDevice .dwd
  | none => s

/-- R347: device reset starts: for a supply below its reset level only out of reset (R341), for the device watchdog as R354 says. -/
def execDeviceReset (cause : DeviceResetCause) (s : State) : Host.Outcome State Fault Refusal :=
  match cause with
  | .supply => if s.sup.inReset || !s.sup.supplies.toList.contains .belowReset then .next s else .next (s.resetDevice .supply)
  | .dwd => .next s.dwdResets
  | .por => .next (s.resetDevice .por)
  | .nrst => .next (s.resetDevice .nrst)

/-- R348: nRST is asserted. -/
def execNrstAssert (s : State) : Host.Outcome State Fault Refusal := .next (s.resetDevice .nrst)

/-- R348: a whole second of an assertion of nRST. -/
def execNrstSecond (s : State) : Host.Outcome State Fault Refusal :=
  if s.sup.nrst then
    let s := s.bumpS R.NRST_HELD_SECONDS
    .next (if 10 ≤ s.get R.NRST_HELD_SECONDS then s.raise R.RST_CAUSE_RESET_STUCK else s)
  else .next s

/-- VBAT is measured (R346). -/
def State.setVbat (s : State) (mv : Nat) : State :=
  (s.modSup fun u => { u with vbatMv := mv }).setFlag R.SUP_STATUS_VBAT_OK (decide (2200 ≤ mv))

/-- The device comes out of reset: KILL is latched where it is asserted, and a supply that is not restored starts a hold (R369). -/
def State.leaveReset (s : State) : State :=
  let s := (s.modSup fun u => { u with inReset := false, nrst := false, releaseFrom := none }).setVbat s.sup.vbatMv
  let s := s.modTb fun b => { b with windowFrom := s.age, calFrom := s.age }
  let s := if s.flag R.SAFE_STATUS_KILL_IN then s.safeEnter safeKillPin else s
  let s := forAll 4 (fun k s => s.setBit R.SUP_STATUS_LOW k.val (!s.sup.restored[k])) s
  if (fins 4).all fun (j : Fin 4) => s.sup.restored[j] then s else s.holdEnter

/-- R341, R370: reset is released, with no supply below its reset level, 100 µs after the last one rose above it. -/
def execResetRelease (s : State) : Host.Outcome State Fault Refusal :=
  if s.sup.inReset && !s.sup.supplies.toList.contains .belowReset then
    .next (match s.sup.releaseFrom with
      | some t => (s.reachAge (t + 1250000)).leaveReset
      | none => s.leaveReset)
  else .next s

/-- R370 to R372: boot ends, with the results of the fuse check and of the self-test. -/
def execBootDone (fuseErr schedFail : Bool) (bistFail : BitVec 8) (s : State) : Host.Outcome State Fault Refusal :=
  if s.sup.inReset || s.flag R.BOOT_STATUS_DONE then .next s
  else
    let s := (s.setFlag R.BOOT_STATUS_DONE true).setFlag R.BOOT_STATUS_FUSE_ERR fuseErr
    .next ((s.setFlag R.BOOT_STATUS_SCHED_FAIL schedFail).set R.BOOT_STATUS_BIST_FAIL bistFail.toNat)

/-! ## Backup domain and VBAT (R345, R346) -/

/-- The registers after backup-domain power-on: backup bits at their reset values. -/
def volatileRegs (m : Cells Reg) : Cells Reg :=
  m.foldl (fun (l : Cells Reg) (p : Nat × Reg) =>
    let k := regBackup p.1
    let r := regReset p.1
    Cells.put (BitVec.ofNat 32 r) p.1 (BitVec.ofNat 32 ((r &&& k) + (p.2.toNat - (p.2.toNat &&& k)))) l) []

/-- R345: backup-domain power-on: every (B) value resets, BKUP_POR included. -/
def execBackupPowerOn (s : State) : Host.Outcome State Fault Refusal :=
  .next { s with regs := volatileRegs s.regs,
                 mtr := { s.mtr with residue := Vector.replicate 16 0, bkPhase := 0, bkCounted := false },
                 unpredRegs := s.unpredRegs.filter fun a => regBackup a == 0 }

/-- Does the charger run, so that the presence test can run? -/
def State.charging (s : State) : Bool :=
  !s.sup.inReset && s.flag R.VBAT_CTRL_CHG_EN && s.flag R.VBAT_CTRL_TEST_EN && !s.bit R.SUP_STATUS_LOW 2
    && !s.flag R.SUP_STATUS_VBAT_LOST

/-- One second after the last presence test. -/
def State.toVbatTest (s : State) : State :=
  match s.sup.vbatAt with
  | some t => s.reachAge (t + 12500000000)
  | none => s

/-- R346: the presence test of VBAT, once per second, with the voltage before and at the end of the test load, in mV. -/
def execVbatTest (beforeMv loadMv : Nat) (s : State) : Host.Outcome State Fault Refusal :=
  if s.charging then
    let s := s.toVbatTest
    let s := (s.modSup fun u => { u with vbatAt := some s.age }).setVbat loadMv
    if loadMv + 200 < beforeMv ∨ loadMv < 2200 then
      .next (((s.raise R.SUP_STATUS_VBAT_LOST).bumpS R.SUP_STATUS_VBAT_LOST_CNT).postF0 0x804 [0, arg loadMv])
    else .next s
  else .next s

/-! ## Watchdogs (R351 to R354) and the cross-monitor (R350) -/

/-! Fault codes (R368). -/
def wdEarly : Nat := 1
def wdWrong : Nat := 2
def wdLateCode : Nat := 3
def wdClockCode : Nat := 4

/-- A watchdog faults: code, count and event; an easel's watchdog resets its easel, the device watchdog enters the safe
state. -/
def State.wdFault (s : State) (w : Fin 9) (code : Nat) : State :=
  let s := ((s.set (wdT w) 0).set (wdLast w) code).bumpS (wdCnt w)
  if h : w.val < 8 then
    let e : Fin 8 := ⟨w.val, h⟩
    let s := (s.postF0For (some e) 0x802 [arg w.val, arg code]).pulse 0xE7
    let s := s.modSup fun u => { u with ewdFault := true, halted := u.halted ||| BitVec.ofNat 8 (2 ^ w.val) }
    s.resetBegin e .watchdog
  else
    let s := (s.postF0 0x802 [arg w.val, arg code]).safeEnter safeDwd
    if s.flag R.DWD_CTRL_RST then s.modSup fun u => { u with dwdReset := some (u.dwdReset.getD s.age) } else s

/-- A LATE fault, which discards every key of its tick. -/
def State.wdLate (s : State) (w : Fin 9) : State :=
  let n := s.wdClockAt w s.age + 1
  (s.modSup fun u => { u with lateAt := upd u.lateAt w fun _ => n }).wdFault w wdLateCode

/-- Are the bounds of the window in range (R351)? -/
def State.wdRange (s : State) (w : Fin 9) : Bool :=
  decide (1 ≤ s.get (wdOpen w)) && decide (s.get (wdOpen w) < s.get (wdClose w))

/-- A host error in the bounds of a watchdog. -/
def State.wdError (s : State) (w : Fin 9) : State :=
  if h : w.val < 8 then s.hostError ⟨w.val, h⟩ else s.globalError (wdOpen w).addr

/-- EN is set: T starts from 0; set once. -/
def State.wdEnable (s : State) (w : Fin 9) : State :=
  if s.flag (wdEn w) then s
  else
    let s' := (s.setFlag (wdEn w) true).set (wdT w) 0
    if s.wdRange w then s' else s'.wdError w

/-- R351: a write of EN = 1. -/
def execWatchdogEnable (w : Fin 9) (a : Agent) (s : State) : Host.Outcome State Fault Refusal :=
  if s.mayWrite a 15 then .next (s.wdEnable w) else .next s

/-- Does the agent serve watchdog `w`: the function of the easel, or whom DWD_CTRL.SRC names (R353, R354)? -/
def State.wdServes (s : State) (w : Fin 9) (a : Agent) : Bool :=
  match a with
  | .fn n => w.val < 8 && n.val == w.val
  | .f0 => w.val == 8 && (s.get R.DWD_CTRL_SRC == 0 || s.get R.DWD_CTRL_SRC == 2)
  | .sp => w.val == 8 && (s.get R.DWD_CTRL_SRC == 1 || s.get R.DWD_CTRL_SRC == 2)
  | .bar2 _ => false

/-- A key write completes at watchdog `w` in the present tick (R352). -/
def State.wdKey (s : State) (w : Fin 9) (key : BitVec 32) : State :=
  let t := s.get (wdT w)
  if s.sup.lateAt[w] = s.wdClockAt w s.age + 1 then s
  else if s.get (wdClose w) ≤ t then s.wdLate w
  else if key ≠ 0x6B3D94C2 then s.wdFault w wdWrong
  else if t < s.get (wdOpen w) then s.wdFault w wdEarly
  else s.set (wdT w) 0

/-- R352: a key write. -/
def execWatchdogKey (w : Fin 9) (a : Agent) (key : BitVec 32) (s : State) : Host.Outcome State Fault Refusal :=
  if s.wdServes w a && !s.sup.inReset && s.flag (wdEn w) then .next (s.wdKey w key) else .next s

/-- The instant at which a watchdog on the timebase reaches CLOSE; one on WDOSC reaches it with this command. -/
def State.wdReach (s : State) (w : Fin 9) : State :=
  if s.flag (wdClk w) then s.reachAge ((s.age / 12500 + (s.get (wdClose w) - s.get (wdT w))) * 12500) else s

/-- R352: T reaches CLOSE. -/
def execWatchdogLate (w : Fin 9) (s : State) : Host.Outcome State Fault Refusal :=
  if s.flag (wdEn w) && !s.wdHalted w && !s.sup.inReset then .next ((s.wdReach w).wdLate w) else .next s

/-- R354: 1 ms after a fault of the device watchdog with RST = 1. -/
def execDwdResetDelay (s : State) : Host.Outcome State Fault Refusal := .next s.dwdResets

/-- R350: the cross-monitor trips on one of its conditions; CLKMON stays until device reset. -/
def execClkmon (condition : Fin 3) (s : State) : Host.Outcome State Fault Refusal :=
  if s.sup.inReset || s.flag R.SUP_STATUS_CLKMON then .next s
  else
    let s := ((s.setFlag R.SUP_STATUS_CLKMON true).postF0 0x805 [0, arg condition.val]).safeEnter safeClkmon
    .next (forAll 9 (fun w s => if s.flag (wdEn w) && !s.flag (wdClk w) then s.wdFault w wdClockCode else s) s)

/-! ## KILL and the safe state (R355, R357, R358) -/

/-- R355, R358: KILL is asserted. During device reset only its level is seen. -/
def execKillAssert (s : State) : Host.Outcome State Fault Refusal :=
  if s.flag R.SAFE_STATUS_KILL_IN then .next s
  else
    let s := s.setFlag R.SAFE_STATUS_KILL_IN true
    if s.sup.inReset then .next s else .next ((s.bumpS R.SAFE_STATUS_KILL_CNT).safeEnter safeKillPin)

/-- R358: KILL is released. -/
def execKillDeassert (s : State) : Host.Outcome State Fault Refusal := .next (s.setFlag R.SAFE_STATUS_KILL_IN false)

/-- Fields that only the safety port writes (R389). -/
def State.portWrites (s : State) (a : Agent) : Bool := a == .sp && !s.sup.inReset

/-- R357: a write of SAFE_CLR, which acts at the next coarse tick. -/
def execSafeClr (a : Agent) (s : State) : Host.Outcome State Fault Refusal :=
  if s.portWrites a then .next (s.modSup fun u => { u with safeClr := true }) else .next s

/-! ## Locks (R362, R387) -/

/-- Lock bits are written; they act at the end of the coarse tick. -/
def State.lockLater (s : State) (bits : BitVec 16) : State := { s with lockNext := s.lockNext ||| bits }

/-- R362: a write of SP_LOCK.LOCK. -/
def execSpLock (a : Agent) (s : State) : Host.Outcome State Fault Refusal :=
  if s.portWrites a then .next (s.lockLater 0x8000) else .next s

/-- R387: a write of LOCK_SET. -/
def execLockSet (a : Agent) (groups : BitVec 10) (s : State) : Host.Outcome State Fault Refusal :=
  if s.reaches a then .next (s.lockLater (groups.setWidth 16)) else .next s

/-! ## Keys (R363) -/

/-- The four bytes of a register, byte 0 first, as a number with byte 0 highest. -/
def bytesUp (v : Nat) : Nat := bits v 0 8 * 2 ^ 24 + bits v 8 8 * 2 ^ 16 + bits v 16 8 * 2 ^ 8 + bits v 24 8

/-- The digest in KEY_DATA0 to KEY_DATA7. -/
def State.keyDigest (s : State) : BitVec 256 :=
  BitVec.ofNat 256 ((List.range 8).foldl (fun d i => d * 2 ^ 32 + bytesUp (s.get (R.KEY_DATA_DIGEST i))) 0)

/-- PROG: burns an unprovisioned slot; refused on a provisioned one, and while a burn is in progress. -/
def State.keyProg (s : State) (slot : Fin 4) : State :=
  let s := s.set R.KEY_CTRL_SLOT slot.val
  if s.fuses.prov.getLsbD slot.val || s.fuses.burn.isSome then s.raise R.KEY_STATUS_ERR
  else { s.setFlag R.KEY_STATUS_BUSY true with fuses := { s.fuses with burn := some (slot, s.keyDigest) } }

/-- R363: a write of PROG. -/
def execKeyProg (a : Agent) (slot : Fin 4) (s : State) : Host.Outcome State Fault Refusal :=
  if s.reaches a then .next (s.keyProg slot) else .next s

/-- R363: the burn ends. -/
def execKeyBurnDone (s : State) : Host.Outcome State Fault Refusal :=
  match s.fuses.burn with
  | some (k, d) =>
    let f := { s.fuses with digests := upd s.fuses.digests k fun _ => d, prov := s.fuses.prov ||| BitVec.ofNat 4 (2 ^ k.val),
                            burn := none }
    .next { s.setFlag R.KEY_STATUS_BUSY false with fuses := f }
  | none => .next s

/-- REVOKE of a slot. -/
def State.keyRevoke (s : State) (slot : Fin 4) : State :=
  { s.set R.KEY_CTRL_SLOT slot.val with
    fuses := { s.fuses with revoked := s.fuses.revoked ||| BitVec.ofNat 4 (2 ^ slot.val) } }

/-- R363, R362: a write of REVOKE, from the safety port, while the safety group is not locked. -/
def execKeyRevoke (a : Agent) (slot : Fin 4) (s : State) : Host.Outcome State Fault Refusal :=
  if s.portWrites a && !s.locked 15 then .next (s.keyRevoke slot) else .next s

/-! ## Debug (R364) -/

/-- DBG.OPEN: opening latches the DEBUG cause; with DBG_LOCK blown it has no effect. -/
def State.debugOpen (s : State) (on : Bool) : State :=
  if s.fuses.dbgLock then s
  else
    let s := s.setFlag R.DBG_OPEN_ST on
    if on then s.safeEnter safeDebug else s

/-- R364: a write of DBG.OPEN. -/
def execDebugOpen (a : Agent) (on : Bool) (s : State) : Host.Outcome State Fault Refusal :=
  if s.portWrites a then .next (s.debugOpen on) else .next s

/-- The blow of DBG_LOCK starts. -/
def State.debugBlow (s : State) : State := if s.fuses.dbgLock then s else s.modSup fun u => { u with dbgBlow := true }

/-- R364: a write of DBG.BLOW. -/
def execDebugBlow (a : Agent) (s : State) : Host.Outcome State Fault Refusal :=
  if s.portWrites a then .next s.debugBlow else .next s

/-- R364: the blow of DBG_LOCK ends. -/
def execDbgLockBlown (s : State) : Host.Outcome State Fault Refusal :=
  if s.sup.dbgBlow then
    let s := { s.setFlag R.DBG_OPEN_ST false with fuses := { s.fuses with dbgLock := true } }
    .next (s.modSup fun u => { u with dbgBlow := false })
  else .next s

end Sys2Proof.Machine
end

