-- ==== Sys2Proof/Machine/TimebaseCommands.lean ====
section
/-! DEFINITION. The commands of the timebase: tempo windows, calibrations, blends, and what TREF does (Time Without a Clock). -/

namespace Sys2Proof.Machine

/-! ## Tempo and fine calibration (R38, R41, R44 to R47) -/

/-- R38, R41: a tempo window of 256 coarse ticks ends, 256 coarse ticks after the window before it, with the trips that each ring
completed in it. -/
def execTempoWindowEnd (trips : Vector Nat 16) (s : State) : Host.Outcome State Fault Refusal :=
  if s.sup.inReset then .next s
  else
    let s := (s.reachAge (s.tb.windowFrom + 32000)).modTb fun t => { t with windowFrom := t.windowFrom + 32000 }
    let rings := ringResults trips
    match stoppedRing rings with
    | some r =>
      let s := (s.setFlag R.TB_STATUS_TEMPO_FAULT true).bumpS R.TB_COUNTS_TEMPO_FAULT_CNT
      .next (((s.postF0 0x20 [0, arg r.val]).pulse 0xE0).publish 0xFFFF r.val)
    | none =>
      let m := largestRing rings
      .next ((s.setFlag R.TB_STATUS_TEMPO_FAULT false).publish m.1 m.2)

/-- R44: the calibration of an interval of 1,024 coarse ticks gave `n` taps to the coarse tick; it takes effect, and the lines
swap, at the first coarse tick of the next interval. -/
def execFineCalibration (n : BitVec 9) (s : State) : Host.Outcome State Fault Refusal :=
  if s.sup.inReset then .next s
  else
    let s := (s.reachAge (s.tb.calFrom + 128000)).modTb fun t => { t with calFrom := t.calFrom + 128000 }
    if 125 ≤ n.toNat ∧ n.toNat ≤ 320 then .next (s.calGood n) else .next (s.calBad n)

/-- R43: the trim of BOSC on TREF, 1 ms (12,500,000 fine ticks) after the one before. The chapter does not place the first trim
after ON_TREF is entered: it comes with its command. -/
def execBoscTrim (word : Int) (s : State) : Host.Outcome State Fault Refusal :=
  if s.sup.inReset || s.tbState != tbOnTref then .next s
  else
    let s := match s.tb.trimAt with
      | some t => s.reachAge (t + 12500000)
      | none => s
    if s.tbState != tbOnTref then .next s
    else .next (s.modTb fun t => { t with bosc := word, trimAt := some s.age })

/-! ## Blends (R58, R60) -/

/-- R58: the next of the 1,000 steps of a blend, at its instant. -/
def execRefBlendStep (s : State) : Host.Outcome State Fault Refusal :=
  if !s.sup.inReset && s.blending && decide (s.tb.blendStep < 1000) then
    .next ((s.reachAge (s.blendInstant (s.tb.blendStep + 1))).modTb fun t =>
      { t with blendStep := t.blendStep + 1, word := blendWord t.blendFrom t.blendTo (t.blendStep + 1) })
  else .next s

/-- R58, R60: a blend ends at its last step, 100 µs after its start, with the word at its target. -/
def execRefBlendComplete (s : State) : Host.Outcome State Fault Refusal :=
  if !s.sup.inReset && s.blending then
    let st := if s.tbState = tbToBosc then tbOnBosc else tbOnTref
    let s := (s.reachAge (s.blendInstant 1000)).modTb fun t => { t with blendStep := 1000, word := t.blendTo }
    .next (s.set R.TB_STATUS_STATE st)
  else .next s

/-! ## TREF (R57, R59, R60, R409) -/

/-- R57: what the loss detector measures. In ON_TREF a loss starts the blend to BOSC; DEDUCED: TREF_LOST carries the state in
which the loss was detected (log entry 89). In QUALIFY a gap is a cycle that fails (R59). -/
def execTrefLoss (seen : TrefView) (s : State) : Host.Outcome State Fault Refusal :=
  if s.sup.inReset || !trefLost seen then .next s
  else
    let gap := match seen with
      | .gap _ => true
      | .window _ => false
    let s := if gap then s.setFlag R.TB_STATUS_TREF_PRESENT false else s
    if s.tbState = tbOnTref then
      let was := s.tbState
      let s := ((s.tbBlend s.age tbToBosc s.tb.bosc).raise R.TB_STATUS_LOSS_STICKY).bumpS R.TB_COUNTS_TREF_LOSS_CNT
      .next ((s.postF0 0x22 [0, arg was]).pulse 0xE2)
    else if gap && s.tbState == tbQualify then .next (s.set R.TB_STATUS_QUAL_COUNT 0)
    else .next s

/-- R60: a TREF edge; in ON_BOSC it starts qualification where TREF is allowed. -/
def execQualifyStart (s : State) : Host.Outcome State Fault Refusal :=
  if s.sup.inReset then .next s
  else
    let s := s.setFlag R.TB_STATUS_TREF_PRESENT true
    if s.tbState = tbOnBosc ∧ s.trefAllowed = true then
      .next ((s.set R.TB_STATUS_STATE tbQualify).set R.TB_STATUS_QUAL_COUNT 0)
    else .next s

/-- R59: a TREF cycle in QUALIFY. -/
def execQualifyCycle (periodPs : Nat) (s : State) : Host.Outcome State Fault Refusal :=
  if !s.sup.inReset && s.tbState == tbQualify then
    let s := s.setFlag R.TB_STATUS_TREF_PRESENT true
    if cycleOk periodPs then .next (s.set R.TB_STATUS_QUAL_COUNT (min 1024 (s.get R.TB_STATUS_QUAL_COUNT + 1)))
    else .next (s.set R.TB_STATUS_QUAL_COUNT 0)
  else .next s

/-- R59, R60: 1,024 good cycles have been counted; `span` is how many BOSC coarse ticks they took, and `word` the frequency word
measured. DESIGN CHOICE: where the span fails, which the chapter gives no sentence, QUAL_COUNT restarts at 0 as it does at a
cycle that fails; QUAL_COUNT keeps 1,024 when QUALIFY is left for the blend (log entry 87). -/
def execTrefQualified (span : Nat) (word : Int) (s : State) : Host.Outcome State Fault Refusal :=
  if !s.sup.inReset && s.tbState == tbQualify && s.get R.TB_STATUS_QUAL_COUNT == 1024 then
    if spanOk span then .next (if s.trefAllowed then s.tbBlend s.age tbToTref word else s)
    else .next (s.set R.TB_STATUS_QUAL_COUNT 0)
  else .next s

/-- R409: a write of TREF_MODE takes effect at once, in every state, and is no host error. -/
def execTrefModeWrite (a : Agent) (mode : BitVec 2) (s : State) : Host.Outcome State Fault Refusal :=
  if s.mayWrite a 0 then .next (s.set R.TB_CTRL_TREF_MODE mode.toNat) else .next s

/-- R60: a write of TREF_EN; its level is tested at the coarse ticks. -/
def execTrefEnWrite (a : Agent) (on : Bool) (s : State) : Host.Outcome State Fault Refusal :=
  if s.mayWrite a 0 then .next (s.setFlag R.TB_CTRL_TREF_EN on) else .next s

/-- R60: a write of FORCE_BOSC; its level is tested at the coarse ticks. -/
def execForceBoscWrite (a : Agent) (on : Bool) (s : State) : Host.Outcome State Fault Refusal :=
  if s.mayWrite a 0 then .next (s.setFlag R.TB_CTRL_FORCE_BOSC on) else .next s

end Sys2Proof.Machine
end

