-- ==== Sys2Proof/Machine/WheelCommands.lean ====
section
/-! DEFINITION. Events of the phase wheel that its advance or a commit places (The Phase Wheel). -/

namespace Sys2Proof.Machine

/-- Goes to the coarse tick at which the advance reaches `target`; false: it never does. -/
def State.reachAdvance (s : State) (target : Nat) : Option State :=
  if target ≤ s.wheel.adv then some s else if s.freq = 0 then none else some (s.elapse (s.ticksToAdvance target))

/-- R270, R271: the angle enters the window of an event, which is armed at the first fine tick in it. In a state that fires no
events, or with the event off, nothing happens. -/
def execAngleArm (k : Fin 40) (s : State) : Host.Outcome State Fault Refusal :=
  match s.armAt k with
  | some t => .next ((s.reachAge t).arm k t)
  | none => .next s

/-- R261: the first coarse tick after a commit of the owner; the vector-shift test looks at the same PHASE_CORR (R286). -/
def execWheelCorrection (s : State) : Host.Outcome State Fault Refusal :=
  let s := s.afterCommit s.ownerWheel.toList
  let s := match s.wheel.newCorr with
    | some c => s.vectorShift c
    | none => s
  .next s.observe

/-- R263: two turns in COAST. -/
def execCoastExpire (s : State) : Host.Outcome State Fault Refusal :=
  if s.whl = whlCoast then
    match s.reachAdvance (s.wheel.entryAdv + 2 * 2 ^ 40) with
    | some s => .next (s.wheelEnter whlFail 6)
    | none => .next s
  else .next s

/-- R267: one turn without a valid edge in LIMP. -/
def execLimpLost (s : State) : Host.Outcome State Fault Refusal :=
  if s.whl = whlLimp then
    match s.reachAdvance (s.wheel.validAdv + 2 ^ 40) with
    | some s => .next (s.wheelEnter whlCoast 5)
    | none => .next s
  else .next s

/-- R268: the next step of a blend. -/
def execWheelBlendStep (s : State) : Host.Outcome State Fault Refusal :=
  if s.whl = whlLimpBlend ∨ s.whl = whlPriBlend then
    match s.reachAdvance (s.wheel.blendAdv + (s.wheel.blendK + 1) * 2 ^ 34) with
    | some s => .next s.blendStep
    | none => .next s
  else .next s

/-- Has the owner a downbeat at or before the present instant that has not given its residual sample yet? -/
def State.sampleDue (s : State) : Bool :=
  match s.ownerWheel with
  | some e => !s.dbMoves e && (match s.dbPoint e with
    | some d => timeLe d s.time
    | none => false)
  | none => false

/-- R269: the primary source qualifies: its samples were good at every downbeat of eight turns. With a downbeat of the span still
to be sampled it has not qualified yet. DESIGN CHOICE: there must have been a sample (log entry 59). -/
def execPrimaryQualified (s : State) : Host.Outcome State Fault Refusal :=
  if (s.whl = whlLimp ∨ s.whl = whlFail) ∧ s.wheel.qualGood = true then
    match s.reachAdvance (s.wheel.qualAdv + 8 * 2 ^ 40) with
    | some u =>
      if u.sampleDue then .next s
      else .next (u.blendStart whlPriBlend 7 (clampInt u.wheel.recCorr (-u.slew) u.slew) u.wheel.recFreq)
    | none => .next s
  else .next s

/-- An angle trigger of a sequence fires it where its pair's owner may use the wheel (R191). -/
def State.angleTrigger (s : State) (p : Fin 8) (q : Fin 4) (late : Bool) : State :=
  match s.pairOwner p with
  | some e =>
    if s.seqArmed p q && s.get (R.ADC_SEQ_SRC p q) == 2 && s.wheelAccess e then s.adcFire p q late (s.whl == whlCoast) else s
  | none => s

/-- R270: an armed event reaches its instant. -/
def execAngleEventFire (k : Fin 40) (s : State) : Host.Outcome State Fault Refusal :=
  match s.wheel.slots[k].armed with
  | some (t, late) =>
    let s := s.reach t
    let s := s.modWheel fun w => { w with slots := upd w.slots k fun x => { x with armed := none } }
    if whlFires s.whl then
      if k.val < 8 then .next (s.pulse (0xD0 + k.val))
      else .next (s.angleTrigger ⟨(k.val - 8) / 4 % 8, Nat.mod_lt _ (by decide)⟩ ⟨(k.val - 8) % 4, Nat.mod_lt _ (by decide)⟩ late)
    else .next s
  | none => .next s

end Sys2Proof.Machine
end

