-- ==== Sys2Proof/Machine/SetUp.lean ====
section
/-! DEFINITION. Access to set-up registers: who reaches what, access codes, locks, frozen fields, what a written value does,
stated ranges, live values and captures (Set-Up Address Map and Register Index; R17 to R19, R49, R131). -/

namespace Sys2Proof.Machine

/-! ## Where an access lands (R131, R379 to R382) -/

/-- The global address behind an offset of an easel window, where an alias lies. -/
def aliasTarget (o : Nat) : Option Nat :=
  if within o 0x1000 0x17FF then some (o + 0x5000)
  else if within o 0x1800 0x1BFF then some (o + 0x5800)
  else if within o 0x2000 0x2BFF then some (o + 0x6000)
  else if within o 0x3000 0x33FF then some (o + 0x6800)
  else none

/-- The owner of the aliased block at a global address: ADC pair, pod channel, leg, comparator, metering engine. -/
def State.blockOwner (s : State) (t : Nat) : Option (Fin 8) :=
  if t < 0x7000 then s.pairOwner (Fin.ofNat 8 ((t - 0x6000) / 0x100))
  else if t < 0x8000 then s.owner (R.OWN_PODCH ((t - 0x7000) / 0x10))
  else if t < 0x8800 then s.ownerLeg (Fin.ofNat 64 ((t - 0x8000) / 0x20))
  else if t < 0x9000 then s.ownerCmp (Fin.ofNat 64 ((t - 0x8800) / 0x10))
  else s.ownerMeter

/-- The address that an access reaches, and whether it goes through an alias; none: nothing answers. -/
def State.place (s : State) (a : Agent) (addr : Nat) : Option (Nat × Bool) :=
  if addr % 4 ≠ 0 then none
  else
    match windowOf addr with
    | some e =>
      if a.window e then
        match aliasTarget (addr % 0x10000) with
        | some t => if s.blockOwner t = some e then some (t, true) else none
        | none => some (addr, false)
      else none
    | none => if a.global && (a != .sp || decide (addr < 0x10000)) then some (addr, false) else none

/-! ## Which bits take a write (R17 to R19, R386, R388, R389) -/

/-- The bits of `x` that are not in `y`. -/
def without (x y : Nat) : Nat := x - (x &&& y)

/-- Fields that their chapter reserves to the safety port. -/
def portOnly (t : Nat) : Nat :=
  if t = 0xA0C8 ∨ t = 0xA0CC then 1 else if t = 0xA120 then 8 else if t = 0xA130 then 5 else 0

/-- Bits that a global register ignores in the present state (R138, R203, R230, R242, R276, the metering chapter). -/
def State.frozenGlobal (s : State) (r : RegRow) (t : Nat) : Nat :=
  let whole (b : Bool) : Nat := if b then 0xFFFFFFFF else 0
  if within t 0x4040 0x404C then whole (s.flag R.F0_RING_CTRL_EN)
  else if within t 0x6000 0x67FF then
    let busy := s.flag (R.ADC_PCTRL_CAL_BUSY ((t - 0x6000) / 0x100))
    if !busy then 0 else if r.base = 0x6000 then 0xF00 else whole (r.base == 0x60C0 || r.base == 0x60C4)
  else if r.base = 0x7818 then if s.flag (R.SL_ACC_BUSY ((t - 0x7800) / 0x80)) then 0xFFFF03FF else 0
  else if within t 0x8000 0x87FF then
    match s.ownerLeg (Fin.ofNat 64 ((t - 0x8000) / 0x20)) with
    | some e => if s.run e then r.rw else 0
    | none => 0
  else if t = 0x9000 then if s.flag R.WHL_CTRL_EN then 0xF00FE else 0
  else if within t 0x9004 0x901C then whole (s.flag R.WHL_CTRL_EN)
  else if t = 0x9800 then if s.mtrOn then 0xE else 0
  else if within t 0x9804 0x980C || within t 0x9840 0x98DF then whole s.mtrOn
  else 0

/-- Bits that a register of window `e` ignores in the present state (R51, R135, R376). -/
def State.frozenWindow (s : State) (e : Fin 8) (o : Nat) : Nat :=
  if within o 0x104 0x10C || o == 0xF00 then if s.run e then 0xFFFFFFFF else 0
  else if within o 0xA04 0xA18 then if s.run e || s.flag (R.RING_CTRL_EN e) then 0xFFFFFFFF else 0
  else 0

def State.frozen (s : State) (r : RegRow) (t : Nat) : Nat :=
  match windowOf t with
  | some e => s.frozenWindow e (t % 0x10000)
  | none => s.frozenGlobal r t

/-- Is the register a comparator's with PROT = 0, whose fields RW/SUP are then RW? -/
def State.dynFree (s : State) (t : Nat) : Bool :=
  within t 0x8800 0x8BFF && !s.flag (R.CMP_CFG_PROT ((t - 0x8800) / 0x10))

/-- Bits that a locked group holds back from a write of `v` over `old`. -/
def State.lockedBits (s : State) (r : RegRow) (t old v : Nat) : Nat :=
  if r.group = 16 || !s.locked r.group then 0
  else without (without r.lock (if s.dynFree t then r.dyn else 0)) (r.up &&& v &&& without 0xFFFFFFFF old)

/-- Does the agent write SUP fields here? -/
def supPath (a : Agent) (through : Bool) (t : Nat) : Bool :=
  !through && (match windowOf t with
    | some _ => a == .f0
    | none => a.global)

/-- The bits that a write of `v` by the agent changes or acts on. The metering alias is read-only. -/
def State.writable (s : State) (a : Agent) (through : Bool) (r : RegRow) (t old v : Nat) : Nat :=
  if through && decide (0x9800 ≤ t) then 0
  else
    let m := r.rw ||| r.rwl ||| r.w1c ||| r.wo ||| (if supPath a through t then r.sup ||| r.dyn else 0)
      ||| (if s.dynFree t then r.dyn else 0)
    let m := if a = .sp then m else without m (portOnly t)
    without (without m (s.lockedBits r t old v)) (s.frozen r t)

/-- Could the safety port write any field of the register (R361)? -/
def RegRow.takesWrites (r : RegRow) : Bool := (r.rw ||| r.dyn ||| r.sup ||| r.rwl ||| r.w1c ||| r.wo) != 0

/-! ## The value stored -/

/-- Bits whose write is an operation of its own, by base address: that operation changes them. -/
def activeBits (r : RegRow) : Nat :=
  if r.win then if r.base = 0x100 ∨ r.base = 0xA00 ∨ r.base = 0xF00 then 1 else 0
  else if r.base = 0x1000 then 0xF
  else if r.base = 0x5100 then 0x70FFF
  else if r.base = 0x8C08 then 2
  else if r.base = 0x9800 then 0x11
  else if r.base = 0x9B80 then 2
  else if r.base = 0x9CC0 then 4
  else if [0x4050, 0x7800, 0x9000, 0x9400, 0x9500, 0xA010, 0xA040].contains r.base then 1
  else 0

/-- The register after a write of `v` over `old` in the bits `w`: RW, RWL and SUP fields take their bits, W1C bits clear. -/
def storedValue (r : RegRow) (w old v : Nat) : Nat :=
  let plain := without (w &&& (r.rw ||| r.rwl ||| r.sup ||| r.dyn)) (activeBits r)
  without (without old plain + (v &&& plain)) (w &&& r.w1c &&& v)

/-- The register at `t` as it stands. -/
def State.raw (s : State) (t : Nat) : Reg := Cells.get (BitVec.ofNat 32 (regReset t)) t s.regs

def State.putRaw (s : State) (t : Nat) (v : Reg) : State :=
  { s with regs := Cells.put (BitVec.ofNat 32 (regReset t)) t v s.regs }

/-! ## What a write does beyond the value stored -/

/-- The state that an operation answers. -/
def after (o : Host.Outcome State Fault Refusal) (s : State) : State :=
  match o with
  | .next t => t
  | .fault _ => s
  | .refused _ => s

/-- A write as the effects see it: the agent, the bits that act, the value, and the state before. -/
structure Write where
  by_ : Agent
  mask : Nat
  v : Nat
  before : State

/-- Does the write act on bit `k`, and does it write 1 there? -/
def Write.has (x : Write) (k : Nat) : Bool := x.mask.testBit k
def Write.bit (x : Write) (k : Nat) : Bool := x.v.testBit k
def Write.one (x : Write) (k : Nat) : Bool := x.has k && x.bit k

/-- Effects in the window of easel `e`. -/
def Write.window (x : Write) (e : Fin 8) (o : Nat) (s : State) : State :=
  if o = 0x100 then if !x.has 0 then s else if x.bit 0 then s.setRun e else s.clearRun e
  else if o = 0x20C then
    let s := if x.one 0 then s.requestLimp e else s
    if x.one 1 then s.requestHrd e else s
  else if o = 0x304 then if x.one 0 then s.requestRelease e else s
  else if o = 0x804 then if x.one 0 then s.resetBegin e .erstCtrl else s
  else if o = 0x814 then
    let s := if s.flag (R.BTEST_CTRL_EN e) && !x.before.flag (R.BTEST_CTRL_EN e) then
      s.testEnabled e else s
    if x.one 1 then s.testResume e else s
  else if o = 0xA00 then if x.has 0 then s.setRingEn e (x.bit 0) else s
  else if o = 0xC00 then if x.one 0 then after (execLedgerAbort e x.by_ s) s else s
  else if o = 0xE00 then after (execWatchdogKey ⟨e.val, by omega⟩ x.by_ (BitVec.ofNat 32 x.v) s) s
  else if o = 0xF00 then if x.has 0 then s.setFlag (R.BRING_CTRL_PRELOAD e) (x.bit 0) else s
  else s

/-- The easels that a write of a grant register makes unpredictable (R110, R133). -/
def State.grantErrors (s : State) (e : Fin 8) (changed : Bool) : List (Fin 8) :=
  let clash := s.grantClash e
  let cut := s.flag (R.RING_CTRL_EN e) && s.grantLog2 e != 0 && s.ringsBad e
  (if (changed && s.run e) || (changed && cut) || !clash.isEmpty then [e] else []) ++ clash

/-- Effects from 0x0000 to 0x5FFF: locks, timebase, image, easel reset, grants, F0 ring, ledger. -/
def Write.low (x : Write) (t : Nat) (s : State) : State :=
  if t = 0x20 then s.lockLater (BitVec.ofNat 16 (x.v &&& 0x3FF))
  else if t = 0x1000 then
    let s := if x.has 0 then after (execTrefModeWrite x.by_ (BitVec.ofNat 2 x.v) s) s else s
    let s := if x.has 2 then after (execTrefEnWrite x.by_ (x.bit 2) s) s else s
    if x.has 3 then after (execForceBoscWrite x.by_ (x.bit 3) s) s else s
  else if t = 0x2000 then
    let s := if x.one 0 then after (execImageLoad x.by_ s) s else s
    if x.one 1 then after (execSwap x.by_ s) s else s
  else if t = 0x3090 then forAll 8 (fun e s => if x.one e.val then s.resetBegin e .f0OrSafetyPort else s) s
  else if within t 0x4000 0x403C then s.hostErrors (s.grantErrors (Fin.ofNat 8 ((t - 0x4000) / 8)) (s.raw t != x.before.raw t))
  else if t = 0x4050 then if x.has 0 then s.setF0En (x.bit 0) else s
  else if within t 0x5000 0x50FF && t % 0x20 == 0x14 then
    if x.one 1 then after (execLedgerAbort (Fin.ofNat 8 ((t - 0x5000) / 0x20)) x.by_ s) s else s
  else if t = 0x5100 then after (execLdgSelWrite x.by_ (BitVec.ofNat 32 (x.v &&& 0x70FFF)) s) s
  else s

/-- Effects from 0x6000 to 0x7FFF: calibration and links. -/
def Write.conversion (x : Write) (r : RegRow) (t : Nat) (s : State) : State :=
  let p : Fin 16 := Fin.ofNat 16 ((t - 0x7800) / 0x80)
  if r.base = 0x6000 then
    let s := s.eventSet
    if x.one 1 then after (execCal (Fin.ofNat 8 ((t - 0x6000) / 0x100)) x.by_ s) s else s
  else if r.base = 0x6004 ∨ r.base = 0x6014 ∨ r.base = 0x6024 then s.eventSet
  else if r.base = 0x7000 then
    { s with mtr := { s.mtr with kept := s.mtr.kept.filter fun y => y.1.val != (t - 0x7000) / 0x10 } }
  else if r.base = 0x7800 then
    let s := if x.has 0 then after (execSlEn p x.by_ (x.bit 0) s) s else s
    if x.one 1 then after (execRetrain p x.by_ s) s else s
  else if r.base = 0x7818 then
    let s := if x.one 8 then after (execSlAccRead p x.by_ (BitVec.ofNat 8 x.v) s) s else s
    if x.one 9 then after (execSlAccWrite p x.by_ (BitVec.ofNat 8 x.v) (BitVec.ofNat 16 (x.v / 2 ^ 16)) s) s else s
  else s

/-- A change of FLT_POL keeps the ball and changes how it reads (R246). -/
def Write.fltPol (x : Write) (l : Fin 64) (s : State) : State :=
  (s.setFlag (R.LEG_STATUS_FLT_IN l) (x.before.fltPin l != s.flag (R.LEG_FLT_FLT_POL l))).fltEval l

/-- A change of OUT on a leg that is not choked: both pins fall, and the interlock runs again (R239). -/
def Write.outMode (x : Write) (l : Fin 64) (s : State) : State :=
  if s.get (R.LEG_CFG_OUT l) = x.before.get (R.LEG_CFG_OUT l) || s.flag (R.LEG_STATUS_CHOKED l) then s else s.pinsLow l

/-- Effects from 0x8000 to 0x8FFF: legs, comparators, choke groups, routes. -/
def Write.power (x : Write) (r : RegRow) (t : Nat) (s : State) : State :=
  let c : Fin 64 := Fin.ofNat 64 ((t - 0x8800) / 0x10)
  let g : Fin 16 := Fin.ofNat 16 ((t - 0x8C00) / 0x10)
  if r.base = 0x8000 then x.outMode (Fin.ofNat 64 ((t - 0x8000) / 0x20)) s
  else if r.base = 0x8014 then x.fltPol (Fin.ofNat 64 ((t - 0x8000) / 0x20)) s
  else if r.base = 0x8804 then if s.raw t = x.before.raw t then s else s.codeChanged c
  else if r.base = 0x8800 then s.rawEval c
  else if r.base = 0x8808 then s.asyncEval c
  else if r.base = 0x8C00 ∨ r.base = 0x8C04 then forAll 64 (fun l s => s.regroup l) s
  else if r.base = 0x8C08 then
    let s := if x.has 1 then after (execCgForce g x.by_ (x.bit 1) s) s else s
    if x.one 2 then after (execCgClr g x.by_ s) s else s
  else if r.base = 0x8D00 then
    { s with router := { s.router with rewritten := s.router.rewritten ||| BitVec.ofNat 128 (2 ^ ((t - 0x8D00) / 4)) } }
  else s

/-- Effects from 0x9000 to 0x9FFF: wheel, grid functions, metering, auxiliary drives. -/
def Write.grid (x : Write) (r : RegRow) (t : Nat) (s : State) : State :=
  if t = 0x9000 then if x.has 0 then after (execWheelEn x.by_ (x.bit 0) s) s else s
  else if within t 0x9040 0x907F then s.eventSet
  else if t = 0x9400 then
    let s := s.hostErrors (s.ownerErrors (x.before.get R.GF_CTRL_OWNER) (s.get R.GF_CTRL_OWNER))
    let s := if x.has 0 then s.setGfEn (x.bit 0) else s
    let s := if x.one 11 then after (execTapNow x.by_ s) s else s
    let s := if x.one 12 then after (execTripClr x.by_ s) s else s
    if x.one 13 then after (execIslClr x.by_ s) s else s
  else if r.base = 0x9500 then
    let k : Fin 8 := Fin.ofNat 8 ((t - 0x9500) / 0x20)
    let s := s.hostErrors (s.ownerErrors (x.before.get (R.MP_CTRL_OWNER k)) (s.get (R.MP_CTRL_OWNER k)))
    if x.has 0 then s.setMpEn k (x.bit 0) else s
  else if t = 0x9800 then
    let s := if x.has 0 then s.setMtrEn (x.bit 0) else s
    if x.one 4 then s.mtrClear else s
  else if t = 0x98F0 then if s.flag R.MG_CTRL_EST_EN || !x.before.flag R.MG_CTRL_EST_EN then s else s.mtrEstOff
  else if t = 0x9920 then if s.flag R.PLS_CTRL_EN then s else s.setEpls false
  else if t = 0x9B80 then if x.one 1 then s.bkClear else s
  else if t = 0x9CC0 then if x.one 2 then after (execDschClr x.by_ s) s else s
  else s

/-- Effects from 0xA000: watchdogs, safe state, keys, debug. -/
def Write.supervision (x : Write) (r : RegRow) (t : Nat) (s : State) : State :=
  let slot : Fin 4 := Fin.ofNat 4 (s.get R.KEY_CTRL_SLOT)
  if t = 0xA010 then if x.one 0 then s.wdEnable 8 else s
  else if r.base = 0xA040 then if x.one 0 then s.wdEnable (Fin.ofNat 9 ((t - 0xA040) / 0x10)) else s
  else if t = 0xA01C then after (execWatchdogKey 8 x.by_ (BitVec.ofNat 32 x.v) s) s
  else if t = 0xA0C8 then if x.one 0 then s.modSup fun u => { u with safeClr := true } else s
  else if t = 0xA0CC then if x.one 0 then s.lockLater 0x8000 else s
  else if t = 0xA120 then
    let s := if x.one 2 then s.keyProg slot else s
    if x.one 3 then s.keyRevoke slot else s
  else if t = 0xA130 then
    let s := if x.has 0 then s.debugOpen (x.bit 0) else s
    if x.one 2 then s.debugBlow else s
  else s

/-- What the write does, by where it lands. -/
def Write.act (x : Write) (r : RegRow) (t : Nat) (s : State) : State :=
  match windowOf t with
  | some e => x.window e (t % 0x10000) s
  | none =>
    if t < 0x6000 then x.low t s
    else if t < 0x8000 then x.conversion r t s
    else if t < 0x9000 then x.power r t s
    else if t < 0xA000 then x.grid r t s
    else x.supervision r t s

/-! ## Host errors of a register write (R4, R16, R84, R407) -/

/-- A stated range: window register or not, base address, lowest bit, width, smallest and largest value. -/
structure Range where
  win : Bool
  base : Nat
  lo : Nat
  width : Nat
  least : Nat
  most : Nat

/-- Ranges of window registers. -/
def windowRanges : List Range := [
  ⟨true, 0x104, 0, 24, 6250, 12500000⟩, ⟨true, 0x814, 4, 12, 1, 4095⟩, ⟨true, 0xA04, 0, 6, 0, 0⟩, ⟨true, 0xA08, 0, 6, 0, 0⟩,
  ⟨true, 0xA0C, 0, 6, 0, 0⟩, ⟨true, 0xA10, 0, 6, 0, 0⟩, ⟨true, 0xA14, 0, 6, 0, 0⟩, ⟨true, 0xA18, 0, 4, 4, 12⟩,
  ⟨true, 0xA18, 4, 4, 4, 12⟩, ⟨true, 0xA18, 8, 4, 4, 12⟩, ⟨true, 0xA18, 12, 4, 4, 12⟩]

/-- Ranges of image, host, conversion, link, leg and comparator registers. -/
def blockRanges : List Range := [
  ⟨false, 0x2004, 0, 3, 0, 0⟩, ⟨false, 0x200C, 0, 22, 200, 2097152⟩, ⟨false, 0x4040, 0, 6, 0, 0⟩, ⟨false, 0x4048, 0, 6, 0, 0⟩,
  ⟨false, 0x4050, 4, 4, 4, 12⟩, ⟨false, 0x6040, 0, 6, 0, 47⟩, ⟨false, 0x6040, 14, 4, 0, 8⟩, ⟨false, 0x7800, 2, 2, 0, 2⟩,
  ⟨false, 0x7800, 4, 4, 1, 15⟩, ⟨false, 0x7800, 8, 6, 1, 63⟩, ⟨false, 0x7800, 14, 6, 1, 63⟩, ⟨false, 0x7820, 16, 16, 1, 65535⟩,
  ⟨false, 0x7828, 1, 8, 15, 255⟩, ⟨false, 0x8000, 1, 2, 0, 2⟩, ⟨false, 0x8000, 4, 2, 0, 2⟩,
  ⟨false, 0x8004, 0, 24, 3125, 12500000⟩, ⟨false, 0x8800, 0, 6, 0, 47⟩, ⟨false, 0x8800, 10, 2, 0, 2⟩, ⟨false, 0x8D00, 8, 3, 0, 5⟩]

/-- Ranges of wheel, grid, metering, auxiliary and supervision registers. -/
def unitRanges : List Range := [
  ⟨false, 0x9008, 0, 24, 1, 16777215⟩, ⟨false, 0x9000, 8, 4, 1, 15⟩, ⟨false, 0x9000, 12, 4, 1, 15⟩, ⟨false, 0x9000, 16, 4, 0, 8⟩, ⟨false, 0x900C, 0, 24, 0, 3958241⟩,
  ⟨false, 0x9044, 24, 2, 0, 2⟩, ⟨false, 0x9418, 0, 12, 1, 4095⟩, ⟨false, 0x9418, 12, 4, 1, 15⟩, ⟨false, 0x9500, 8, 12, 1, 4095⟩,
  ⟨false, 0x9800, 2, 2, 0, 2⟩, ⟨false, 0x9804, 0, 24, 0, 8388607⟩, ⟨false, 0x98E8, 0, 16, 1, 65535⟩,
  ⟨false, 0x9920, 16, 16, 1, 65535⟩, ⟨false, 0x9924, 0, 16, 1, 65535⟩, ⟨false, 0x9C00, 0, 16, 100, 65535⟩,
  ⟨false, 0x9C04, 0, 8, 1, 255⟩, ⟨false, 0x9C04, 16, 8, 1, 255⟩, ⟨false, 0x9C84, 0, 16, 1, 65535⟩, ⟨false, 0x9CC4, 16, 5, 10, 30⟩,
  ⟨false, 0xA010, 2, 2, 0, 2⟩]

/-- Does a register value keep the ranges of its register? -/
def inRanges (r : RegRow) (v : Nat) : Bool :=
  (windowRanges ++ blockRanges ++ unitRanges).all fun (g : Range) =>
    g.win != r.win || g.base != r.base || (decide (g.least ≤ bits v g.lo g.width) && decide (bits v g.lo g.width ≤ g.most))

/-- ARG bits that an action of a route does not use. -/
def unusedArg (action : Nat) : Nat := if action = 1 then 0 else if action = 2 ∨ action = 4 then 0xFFE0 else 0xFFFF

/-- The largest STALL_QUOTA of easel `e` (R122): the Q of the image from which its runs come, and, while a swap is pending for it,
no more than that of the new image; without an image nothing bounds it. -/
def State.quotaLimit (s : State) (e : Fin 8) : Nat :=
  let q (h : Half) : Nat := if h.hasEasel e then Config.buildQuota (BitVec.ofNat 32 h.id) else 255
  let own := if s.hasImage e then q (s.halfOf e) else 255
  if s.swapPending && !s.img.changed.getLsbD e.val then min own (q (s.img.half (!s.activeHalf))) else own

/-- Ranges that involve more than one field. -/
def State.relationsHold (s : State) (r : RegRow) (t v : Nat) : Bool :=
  let l := (t - 0x8000) / 0x20
  let p := (t - 0x7800) / 0x80
  let whole (c : Nat) : Bool :=
    let phase := s.get (R.PHASE_PHASE p c)
    phase % 500 == 0 && decide (phase < 500 * (s.get (R.PCFG_CH_OSR_M1 p c) + 1) * (s.get (R.PCFG_CH_DIV_M1 p c) + 1))
  let offsets (e : Fin 8) (p : Fin 8) : Bool := s.pairOwner p != some e || (fins 4).all fun q =>
    s.get (R.ADC_SEQ_SRC p q) != 0 || decide (s.get (R.ADC_TOFS_OFFSET p q) < s.get (R.DB_PERIOD_PERIOD e))
  if r.win then match windowOf t with
    | some e =>
      if r.base = 0x800 then decide (bits v 8 8 ≤ s.quotaLimit e)
      else r.base != 0x104 || (fins 8).all fun p => offsets e p
    | none => true
  else if r.base = 0x4000 then bits v 0 5 == 0 || (decide (16 ≤ bits v 0 5) && bits v 16 16 % 2 ^ (bits v 0 5 - 16) == 0)
  else if r.base = 0x6000 then !v.testBit 0 || bits v 10 2 == 0
  else if r.base = 0x6004 ∨ r.base = 0x6014 then
    let p : Fin 8 := Fin.ofNat 8 ((t - 0x6000) / 0x100)
    (r.base != 0x6004 || decide (bits v 2 5 + bits v 7 5 ≤ 31)) && (match s.pairOwner p with
      | some e => offsets e p
      | none => true)
  else if r.base = 0x7800 then decide (bits v 14 6 ≤ bits v 8 6)
  else if r.base = 0x7828 then whole ((t - 0x7828) % 0x80 / 4)
  else if r.base = 0x7838 then whole ((t - 0x7838) % 0x80 / 4)
  else if r.base = 0x8004 ∨ r.base = 0x8008 then decide (s.get (R.LEG_PHS_CPHASE l) < s.get (R.LEG_PER_PERIOD l))
  else if r.base = 0x8D00 then bits v 16 16 &&& unusedArg (bits v 8 3) == 0
  else if within t 0x9004 0x900C then
    decide (s.get R.WHL_FMIN_FMIN ≤ s.get R.WHL_FNOM_FNOM) && decide (s.get R.WHL_FNOM_FNOM ≤ s.get R.WHL_FMAX_FMAX)
  else if t = 0x9010 then decide (bits v 0 16 ≤ bits v 16 16)
  else if r.base = 0x9508 ∨ r.base = 0x950C ∨ r.base = 0x9510 then
    let k : Fin 8 := Fin.ofNat 8 ((t - 0x9500) / 0x20)
    decide (s.get (R.MP_VMIN_VMIN k) ≤ s.get (R.MP_VSTART_VSTART k))
      && decide (s.get (R.MP_VSTART_VSTART k) ≤ s.get (R.MP_VMAX_VMAX k))
  else if r.base = 0x9C08 then decide (bits v 0 10 ≤ bits v 16 10)
  else if t = 0xA014 ∨ t = 0xA018 then !s.flag R.DWD_CTRL_EN || s.wdRange 8
  else if r.base = 0xA044 ∨ r.base = 0xA048 then
    let w : Fin 9 := Fin.ofNat 9 ((t - 0xA040) / 0x10)
    !s.flag (wdEn w) || s.wdRange w
  else true

/-- The easels that own a leg of a choke group of a mask. -/
def State.groupOwners (s : State) (mask : Nat) : List (Fin 8) :=
  (fins 8).filter fun e => (fins 16).any fun g => mask.testBit g.val && s.ownsOfGroup e g

/-- The easels that own or are assigned what the register at `t` sets (R4), or that a protection setting names (R407). -/
def State.concerned (s : State) (t : Nat) : List (Fin 8) :=
  let one (f : Fld) : List (Fin 8) := (s.owner f).toList
  match windowOf t with
  | some e => [e]
  | none =>
    if within t 0x4000 0x403F then [Fin.ofNat 8 ((t - 0x4000) / 8)]
    else if within t 0x5000 0x50FF then [Fin.ofNat 8 ((t - 0x5000) / 0x20)]
    else if within t 0x8000 0x87FF && t % 0x20 == 0x14 then
      (s.blockOwner t).toList ++ s.groupOwners (s.get (R.LEG_FLT_FLT_GRP ((t - 0x8000) / 0x20)))
    else if within t 0x8800 0x8BFF && s.protective t then
      (s.blockOwner t).toList ++ s.groupOwners (s.get (R.CMP_GRP_GRP_UP ((t - 0x8800) / 0x10)))
        ++ s.groupOwners (s.get (R.CMP_GRP_GRP_DN ((t - 0x8800) / 0x10)))
    else if within t 0x6000 0x73FF || within t 0x8000 0x8BFF then (s.blockOwner t).toList
    else if within t 0x7800 0x7FFF then
      (List.range 4).flatMap fun c => one (R.OWN_PODCH (4 * ((t - 0x7800) / 0x80) + c))
    else if within t 0x8C00 0x8CFF then (fins 8).filter fun e => s.ownsOfGroup e (Fin.ofNat 16 ((t - 0x8C00) / 0x10))
    else if within t 0x8D00 0x8EFF then
      let r := (t - 0x8D00) / 4
      Fin.ofNat 8 (s.get (R.ROUTE_EASEL r)) ::
        (if within (s.get (R.ROUTE_ACTION r)) 2 5 then [] else s.groupOwners (s.get (R.ROUTE_ARG r)))
    else if within t 0x9000 0x907F then one R.OWN_WHEEL_WHEEL
    else if within t 0x9400 0x94FF then one R.GF_CTRL_OWNER
    else if within t 0x9500 0x95FF then one (R.MP_CTRL_OWNER ((t - 0x9500) / 0x20))
    else if within t 0x9800 0x9B9F then one R.OWN_WHEEL_METER
    else if within t 0x9C00 0x9C3F then one (R.OWN_FAN ((t - 0x9C00) / 0x10))
    else if within t 0x9C40 0x9C7F then one (R.OWN_COIL ((t - 0x9C40) / 8))
    else if within t 0x9CC0 0x9CDB then one R.OWN_AUX0_DISCHG
    else if within t 0xA040 0xA0BF then [Fin.ofNat 8 ((t - 0xA040) / 0x10)]
    else []

/-- A host error in the register at `t`. A wrong protection setting may itself act in any way (R407). -/
def State.setUpError (s : State) (t : Nat) : State :=
  let es := (s.concerned t).eraseDups
  let s := s.hostErrors es
  if es.isEmpty || s.protective t then s.globalError t else s

/-! ## The write (R383) -/

/-- W1C bits of the register at `t` that hardware has set in this coarse tick. -/
def State.raisedBits (s : State) (t : Nat) : Nat :=
  s.tick.raised.foldl (fun (m : Nat) (x : Nat × Nat) => if x.1 = t then m ||| x.2 else m) 0

/-- The bits that take the write in this coarse tick (R10, R383). -/
def State.taking (s : State) (a : Agent) (r : RegRow) (t w : Nat) : Nat :=
  without (without w (s.overruled a t &&& (r.rw ||| r.rwl ||| r.sup ||| r.dyn))) (s.raisedBits t &&& r.w1c)

/-- A clear of a counter comes before its counts of the same coarse tick (R9). -/
def State.recount (s : State) (t w v : Nat) : State :=
  s.tick.counts.foldl (fun (s : State) (c : Nat × Nat × Nat) =>
    let f : Fld := ⟨t, c.2.1, c.2.2, regReset t⟩
    if c.1 = t ∧ w.testBit c.2.1 = true ∧ bits v c.2.1 c.2.2 = 0 then s.set f (min f.top (s.get f + 1)) else s) s

/-- The write of a register that some bit takes: value, effects, host errors. -/
def State.applyWrite (s : State) (a : Agent) (r : RegRow) (t w v : Nat) : State :=
  let x : Write := ⟨a, w, v, s⟩
  let s' := (s.putRaw t (BitVec.ofNat 32 (storedValue r w (s.raw t).toNat v))).recount t w v
  let s' := x.act r t (s'.noteWrite a t w)
  if without v r.known = 0 && inRanges r (s'.raw t).toNat && s'.relationsHold r t (s'.raw t).toNat then s' else s'.setUpError t

/-- A write of a set-up register; one that nothing takes changes nothing (R17, R131, R381). -/
def State.writeRegister (s : State) (a : Agent) (addr : Nat) (be : BitVec 4) (v : Reg) : State :=
  if s.sup.inReset || be != 0xF then s
  else if let .bar2 fn := a then s.writeBar2 fn addr v
  else
    match s.place a addr with
    | none => s
    | some (t, through) =>
      if isOwnerReg t then if s.mayWrite a 2 then s.writeOwners a t v else s
      else
        match findReg t with
        | none => s
        | some r =>
          let w := s.taking a r t (s.writable a through r t (s.raw t).toNat v.toNat)
          if w = 0 then s else s.applyWrite a r t w v.toNat

/-- R383: a write of a set-up register. -/
def execSetupRegisterWrite (a : Agent) (addr : BitVec 24) (be : BitVec 4) (value : BitVec 32) (s : State) :
    Host.Outcome State Fault Refusal := .next (s.writeRegister a addr.toNat be value)

/-! ## Reads: live values (R52, R148, R169, R179, R259, R291, R327, R333, R374) -/

/-- Bits of sequences, one per sequence of a pair. -/
def seqBits (f : Fin 4 → Bool) : Nat := (fins 4).foldl (fun m q => if f q then m + 2 ^ q.val else m) 0

/-- The live fields of the register at offset `o` of window `e`, refreshed. -/
def State.refreshWindow (s : State) (e : Fin 8) (o : Nat) : State :=
  if o = 0x110 then s.set (R.DB_COUNT_LO_COUNT_LO e) (s.ez e).dbCount.toNat
  else if o = 0x114 then s.set (R.DB_COUNT_HI_COUNT_HI e) ((s.ez e).dbCount.toNat / 2 ^ 32)
  else if o = 0x118 then s.set (R.EASEL_TIME_LO_TIME_LO e) s.time.toNat
  else if o = 0x11C then s.set (R.EASEL_TIME_HI_TIME_HI e) (s.time.toNat / 2 ^ 32)
  else if o = 0xA20 then
    (s.setFlag (R.RING_STATUS_OUTAGE e) (s.outage e)).setFlag (R.RING_STATUS_INFLIGHT e) ((s.ez e).intake != .idle)
  else if o = 0xF00 then s.setFlag (R.BRING_CTRL_PRELOAD_ACT e) (s.preloadActive e)
  else s

/-- The live fields of the global register at `t`, refreshed. -/
def State.refreshGlobal (s : State) (t : Nat) : State :=
  let l : Fin 8 := Fin.ofNat 8 ((t - 0x5000) / 0x20)
  let p : Fin 8 := Fin.ofNat 8 ((t - 0x6000) / 0x100)
  let g : Fin 2 := Fin.ofNat 2 ((t - 0x9C80) / 0x10)
  if t = 0x1008 then s.set R.TB_TIME_LO_TIME_LO s.time.toNat
  else if t = 0x100C then s.set R.TB_TIME_HI_TIME_HI (s.time.toNat / 2 ^ 32)
  else if within t 0x5000 0x50FF then
    let z := s.ez l
    if t % 0x20 = 0 then (s.set (R.LDG_IDX_TAIL l) z.tail.toNat).set (R.LDG_IDX_CMT l) z.cmt.toNat
    else if t % 0x20 = 4 then s.set (R.LDG_RET_RET l) z.ret.toNat
    else if t % 0x20 = 0x18 then s.setFlag (R.LDG_STATUS_REPLAY_WAIT l) z.replayWait
    else s
  else if within t 0x6000 0x67FF && t % 0x100 == 0 then
    (s.set (R.ADC_PCTRL_BUSY p) (seqBits fun q => s.seqRuns (s.conv p (s.convOf p q)) q)).set (R.ADC_PCTRL_PEND p)
      (seqBits fun q => (s.conv p (s.convOf p q)).waits q)
  else if t = 0x9028 then s.set R.WHL_ANGLE_ANGLE s.angle
  else if t = 0x94D8 then s.set R.GF_ZEST_Z (s.zEst.toNat / 256)
  else if t = 0x94DC then s.set R.GF_EEST_E (s.eEst.toNat / 256)
  else if t = 0x9B00 then s.set R.MSNAP_TIME_LO_TIME s.mtr.blockEnd.toNat
  else if t = 0x9B04 then s.set R.MSNAP_TIME_HI_TIME (s.mtr.blockEnd.toNat / 2 ^ 32)
  else if t = 0x9C88 ∨ t = 0x9C98 then s.set (R.CLMP_STATUS_M g) (min 0xFFFFFF (s.aux.clamp[g] / microJ))
  else if t = 0x9CD4 then s.set R.DSCH_STATUS_D (min 0xFFFF s.dschJ)
  else if t = 0xA124 then
    (s.set R.KEY_STATUS_PROV (if s.flag R.BOOT_STATUS_FUSE_ERR then 0 else s.fuses.prov.toNat)).set R.KEY_STATUS_REVOKED
      s.fuses.revoked.toNat
  else if t = 0xA130 then s.setFlag R.DBG_LOCKED s.fuses.dbgLock
  else s

def State.refresh (s : State) (t : Nat) : State :=
  match windowOf t with
  | some e => s.refreshWindow e (t % 0x10000)
  | none => s.refreshGlobal t

/-- What the register at `t` holds at this instant. -/
def State.present (s : State) (t : Nat) : Reg := (s.refresh t).raw t

/-! ## Captures (R49, R309, R313, R384) -/

/-- The registers that a read of a capturing register captures. -/
def captureSet (t : Nat) : List Nat :=
  if t = 0x1008 then [0x100C]
  else if within t 0x5000 0x50FF && t % 0x20 == 0 then [t + 4]
  else if t = 0x9A00 then
    (List.range 16).flatMap (fun i => [0x9A00 + 0x10 * i, 0x9A04 + 0x10 * i, 0x9A08 + 0x10 * i]) ++ [0x9B00, 0x9B04]
  else if t = 0x9B8C then [0x9B90, 0x9B94, 0x9B98, 0x9B9C]
  else if (windowOf t).isSome && (t % 0x10000 == 0x110 || t % 0x10000 == 0x118) then [t + 4]
  else []

/-- Does a read of the register at `t` return the captured copy? -/
def showsCapture (t : Nat) : Bool :=
  t == 0x100C || (within t 0x5000 0x50FF && t % 0x20 == 4) || within t 0x9A00 0x9AFF || t == 0x9B00 || t == 0x9B04
    || within t 0x9B90 0x9B9C || ((windowOf t).isSome && (t % 0x10000 == 0x114 || t % 0x10000 == 0x11C))

def agentNumber (a : Agent) : Nat :=
  match a with
  | .f0 => 0
  | .fn e => e.val + 1
  | .sp => 9
  | .bar2 fn => fn.val + 10

/-- Where the copy of an agent lies. -/
def capKey (a : Agent) (t : Nat) : Nat := agentNumber a * 2 ^ 24 + t

/-- A read of a capturing register takes the copies of the agent. -/
def State.capture (s : State) (a : Agent) (t : Nat) : State :=
  { s with caps := (captureSet t).foldl (fun (m : Cells Reg) u => Cells.put 0 (capKey a u) (s.present u) m) s.caps }

/-- A read: the value, and the state with the copies it takes; where nothing answers, or in another form than 32 aligned bits, it
reads 0 (R131, R381, R382). -/
def State.readRegister (s : State) (a : Agent) (addr : Nat) (be : BitVec 4) : Reg × State :=
  match s.place a addr with
  | none => (0, s)
  | some (t, _) =>
    if be != 0xF then (0, s) else
    if (findReg t).isNone then (0, s)
    else
      let s := s.capture a t
      (if showsCapture t then Cells.get 0 (capKey a t) s.caps else s.present t, s)

/-- R384: a read of the low register of a capturing pair. -/
def execCaptureRead (a : Agent) (addr : BitVec 24) (be : BitVec 4) (s : State) : Host.Outcome State Fault Refusal :=
  if s.sup.inReset then .next s else .next (s.readRegister a addr.toNat be).2

end Sys2Proof.Machine
end

