-- ==== Sys2Proof/Machine/SafetyPort.lean ====
section
/-! DEFINITION. The safety port: frames, responses, reads and writes (R360, R361). `spReply` is the response that the next frame
shifts out, `spOut` what the last one shifted out. -/

namespace Sys2Proof.Machine

/-- CRC-8 over bits [31:8], most significant first, initial value 0xFF. -/
def portCrc (frame : Nat) : Nat := crcBits 8 0x07 0xFF (msbFirst 24 (frame / 256))

/-- A frame of an operation, with payload in bits [27:12], and its CRC. -/
def portFrame (op payload : Nat) (seq : BitVec 4) : BitVec 32 :=
  let body := op * 2 ^ 28 + payload % 2 ^ 16 * 2 ^ 12 + seq.toNat * 2 ^ 8
  BitVec.ofNat 32 (body + portCrc body)

/-- The parts of a frame. -/
def portOp (f : BitVec 32) : Nat := bits f.toNat 28 4
def portData (f : BitVec 32) : BitVec 16 := BitVec.ofNat 16 (bits f.toNat 12 16)
def portAddr (f : BitVec 32) : BitVec 14 := BitVec.ofNat 14 (bits f.toNat 12 14)
def portSeq (f : BitVec 32) : BitVec 4 := BitVec.ofNat 4 (bits f.toNat 8 4)
def portOk (f : BitVec 32) : Bool := bits f.toNat 0 8 == portCrc f.toNat

/-! Responses. -/
def rspStatus : Nat := 0
def rspRdHi : Nat := 1
def rspRdLo : Nat := 2
def rspAck : Nat := 3
def rspNak : Nat := 4

/-- The response to frame `f`. -/
def State.spAnswer (s : State) (f : BitVec 32) (rsp payload : Nat) : State :=
  s.modSup fun u => { u with spReply := portFrame rsp payload (portSeq f) }

/-- No write or read stays open. -/
def State.spClose (s : State) : State := s.modSup fun u => { u with spStage := .idle, spLow := none }

/-- The payload of STATUS. -/
def State.spStatus (s : State) : Nat :=
  [s.inSafe, s.flag R.SAFE_STATUS_KILL_IN, s.hold, s.flag R.DWD_STATUS_FAULT, s.sup.ewdFault, s.flag R.SUP_STATUS_CLKMON,
    s.flag R.SUP_STATUS_VBAT_LOST, s.flag R.RST_CAUSE_RESET_STUCK, s.flag R.LOCK_STATUS_SAFETY, !s.sup.inReset].foldr
    (fun b m => 2 * m + b.toNat) 0

/-- STATUS, whose bit for easel-watchdog faults counts from the last STATUS. -/
def State.spStatusAnswer (s : State) (f : BitVec 32) : State :=
  (s.spAnswer f rspStatus s.spStatus).modSup fun u => { u with ewdFault := false }

/-- A frame of operation `op`: nothing during device reset; NAK 1 on a bad CRC; a frame of another operation is another
command's. -/
def State.spFrame (s : State) (op : Nat) (f : BitVec 32) (act : State → State) : State :=
  if s.sup.inReset then s
  else
  let s := s.modSup fun u => { u with spOut := u.spReply }
  if !portOk f then s.spClose.spAnswer f rspNak 1
  else if portOp f ≠ op then s
  else act s

/-- NOP: RD_LO after a READ, else STATUS. -/
def State.spNopAct (s : State) (f : BitVec 32) : State :=
  match s.sup.spLow with
  | some d => s.spClose.spAnswer f rspRdLo d.toNat
  | none => s.spClose.spStatusAnswer f

/-- R360: the frame NOP. -/
def execSpNop (frame : BitVec 32) (s : State) : Host.Outcome State Fault Refusal :=
  .next (s.spFrame 0 frame fun s => s.spNopAct frame)

/-- READ: the value is taken at once; its low half waits for the NOP. -/
def State.spReadAct (s : State) (f : BitVec 32) : State :=
  let r := s.readRegister .sp (4 * (portAddr f).toNat) 0xF
  (r.2.spClose.spAnswer f rspRdHi (r.1.toNat / 2 ^ 16)).modSup fun u => { u with spLow := some (r.1.setWidth 16) }

/-- R361: the frame READ. -/
def execSpRead (frame : BitVec 32) (s : State) : Host.Outcome State Fault Refusal :=
  .next (s.spFrame 1 frame fun s => s.spReadAct frame)

/-- R361: the frame WRITE. -/
def execSpWrite (frame : BitVec 32) (s : State) : Host.Outcome State Fault Refusal :=
  .next (s.spFrame 2 frame fun s =>
    (s.spClose.spStatusAnswer frame).modSup fun u => { u with spStage := .writing (portAddr frame) (portSeq frame) })

/-- DATA_HI: it must follow WRITE with the same SEQ. -/
def State.spDataHiAct (s : State) (f : BitVec 32) : State :=
  match s.sup.spStage with
  | .writing a q =>
    if q = portSeq f then (s.spClose.spStatusAnswer f).modSup fun u => { u with spStage := .writingLo a q (portData f) }
    else s.spClose.spAnswer f rspNak 2
  | _ => s.spClose.spAnswer f rspNak 2

/-- R361: the frame DATA_HI. -/
def execDataHi (frame : BitVec 32) (s : State) : Host.Outcome State Fault Refusal :=
  .next (s.spFrame 3 frame fun s => s.spDataHiAct frame)

/-- May the safety port write a field of the global register at `t`? -/
def portTakes (t : Nat) : Bool :=
  match findReg t with
  | some r => r.takesWrites
  | none => false

/-- DATA_LO: it must follow DATA_HI with the same SEQ; the write is applied. -/
def State.spDataLoAct (s : State) (f : BitVec 32) : State :=
  match s.sup.spStage with
  | .writingLo a q hi =>
    if q = portSeq f then
      let t := 4 * a.toNat
      let v := BitVec.ofNat 32 (hi.toNat * 2 ^ 16 + (portData f).toNat)
      if portTakes t then (s.spClose.writeRegister .sp t 0xF v).spAnswer f rspAck 0 else s.spClose.spAnswer f rspNak 3
    else s.spClose.spAnswer f rspNak 2
  | _ => s.spClose.spAnswer f rspNak 2

/-- R361: the frame DATA_LO. -/
def execDataLo (frame : BitVec 32) (s : State) : Host.Outcome State Fault Refusal :=
  .next (s.spFrame 4 frame fun s => s.spDataLoAct frame)

/-- KILL with its code latches KILL_CMD; with any other payload it is refused. -/
def State.spKillAct (s : State) (f : BitVec 32) : State :=
  if portData f = 0x2A5C then (s.spClose.safeEnter safeKillCmd).spAnswer f rspAck 0 else s.spClose.spAnswer f rspNak 3

/-- R360: the frame KILL. -/
def execKill (frame : BitVec 32) (s : State) : Host.Outcome State Fault Refusal :=
  .next (s.spFrame 5 frame fun s => s.spKillAct frame)

end Sys2Proof.Machine
end

