-- ==== Sys2Proof/Machine/Tiles.lean ====
section
/-! DEFINITION. Tile execution: starting runs, and one meaning per slot opcode (R68, R70, R85 to R90, R101, R102). -/

namespace Sys2Proof.Machine

/-- Changes tile `t`. -/
def State.modTile (s : State) (t : Fin 16) (f : Tile → Tile) : State := { s with tiles := upd s.tiles t f }

/-! ## Runs -/

/-- A tile starts a run (R68, R85); an INTAKE run of an intake pass issues the doorbell read (R70, R138), and the first CHECK
run of a pass brings a prediction (R78). -/
def State.startRun (s : State) (t : Fin 16) (e : Fin 8) (i : Nat) (p : Pass) : State :=
  let h := s.passHalf p
  let first (seg : Nat) : Bool := (h.segRuns e p.limp seg).all fun j => !p.started.contains j
  let intake := p.openDb.toNat % h.intakeM (s.passEntry e p) == 0
  let mute := h.runSeg i == 0 && !intake
  let s := s.modTile t fun _ => { run := some { easel := e, half := p.half, header := i, done := 0, dead := false, mute := mute } }
  let s := s.modPass e fun p => { p with started := p.started ++ [i] }
  if h.runSeg i = 0 then
    if s.run e && first 0 && intake then s.intakeStart e false else s
  else if h.runSeg i = 2 && first 2 then s.predict e
  else s

/-- R68: an idle tile starts the ready run with the lowest PRIO. -/
def execTileRunStart (t : Fin 16) (s : State) : Host.Outcome State Fault Refusal :=
  if s.tiles[t].run.isSome then .next s
  else match s.nextRun t with
    | some (e, i) => match (s.ez e).pass with
      | some p => .next (s.startRun t e i p)
      | none => .next s
    | none => .next s

/-- Counts a slot word that the critical tile executes (R78). -/
def State.countHu (s : State) (t : Fin 16) (r : Run) : State :=
  match (s.ez r.easel).pass with
  | some p =>
    let h := s.passHalf p
    if h.critTile (s.passEntry r.easel p) = t.val then
      let seg := h.runSeg r.header
      s.modPass r.easel fun p =>
        if seg ≤ 1 then { p with huPre := p.huPre + 1 } else if seg = 2 then { p with huCheck := p.huCheck + 1 }
        else { p with huRepaint := p.huRepaint + 1 }
    else s
  | none => s

/-- A run of a pass has executed its last slot word: the last CHECK run forms the verdict, the last REPAINT run makes the
pass final (R96, R97). -/
def State.runFinished (s : State) (r : Run) : State :=
  let s := s.modPass r.easel fun p => { p with finished := p.finished ++ [r.header] }
  match (s.ez r.easel).pass with
  | some p =>
    let seg := (s.passHalf p).runSeg r.header
    if seg = 2 && p.checked && p.verdict.isNone && s.segDone r.easel p 2 then s.formVerdict r.easel
    else if seg = 3 && p.repaint && p.final.isNone && s.segDone r.easel p 3 then s.finalPass r.easel
    else s
  | none => s

/-- Is the run in progress on tile `t`, if any, one that completes without effect? -/
def Tile.idleOrDead (x : Tile) : Bool :=
  match x.run with
  | some q => q.dead
  | none => true

/-- The tile after one more slot word of its run. -/
def Tile.advance (x : Tile) (n : Nat) : Tile := { x with run := x.run.map fun q => { q with done := n } }

/-- The tile without a run. -/
def Tile.endRun (x : Tile) : Tile := { x with run := none }

/-- The slot word has been executed: the run goes on, or ends. -/
def State.slotDone (s : State) (t : Fin 16) (r : Run) : State :=
  let s := if r.dead then s else s.countHu t r
  if r.done + 1 < (s.img.half r.half).runLen r.header then s.modTile t fun x => x.advance (r.done + 1)
  else if s.tiles[t].idleOrDead then s.modTile t Tile.endRun
  else (s.modTile t Tile.endRun).runFinished r

/-- The slot word that tile `t` executes next. -/
def State.slotAt (s : State) (r : Run) : Slot := slotOf ((s.img.half r.half).body (r.header + 1 + r.done))

/-- Tile `t` executes a slot word with opcode `op`, whose effect is `act`. A run that is dead completes without effect, and so
does an INTAKE run outside an intake pass (R70); a slot word that the tables do not allow is an image error (R84). With another opcode next, there is no such step. -/
def State.slot (s : State) (t : Fin 16) (op : Nat) (act : Fin 8 → Slot → State → State) : State :=
  match s.tiles[t].run with
  | some r =>
    let w := s.slotAt r
    if w.op = op then
      if r.dead || r.mute then s.slotDone t r
      else if slotOk ((s.img.half r.half).runSeg r.header) w then (act r.easel w s).slotDone t r
      else (s.slotDone t r).hostErrors s.imageEasels
    else s
  | none => s

/-! ## Shared forms -/

/-- D ← sat of a function of A. -/
def State.unary (s : State) (e : Fin 8) (w : Slot) (f : Int → Int) : State :=
  let (x, s) := s.readA e w
  s.writeSat e w.dst (f x.val.toInt) x.taint

/-- D ← sat of a function of A and B. -/
def State.binary (s : State) (e : Fin 8) (w : Slot) (f : Int → Int → Int) : State :=
  let (x, s) := s.readA e w
  let (y, s) := s.readOp e w.b
  s.writeSat e w.dst (f x.val.toInt y.val.toInt) (x.taint || y.taint)

/-- C ← a comparison of A and B. -/
def State.compare (s : State) (t : Fin 16) (e : Fin 8) (w : Slot) (f : Int → Int → Bool) : State :=
  let (x, s) := s.readA e w
  let (y, s) := s.readOp e w.b
  s.modTile t fun r => { r with c := f x.val.toInt y.val.toInt, cTaint := x.taint || y.taint }

/-- ACC ← sat88 of a function of ACC and the exact product A × B; `keep`: the old ACC counts for the taint. -/
def State.accumulate (s : State) (t : Fin 16) (e : Fin 8) (w : Slot) (keep : Bool) (f : Int → Int → Int) : State :=
  let (x, s) := s.readA e w
  let (y, s) := s.readOp e w.b
  let r := f s.tiles[t].acc.toInt (x.val.toInt * y.val.toInt)
  (s.markSat e (saturates 88 r)).modTile t fun q =>
    { q with acc := BitVec.ofInt 88 (satInt 88 r), accTaint := x.taint || y.taint || (keep && q.accTaint) }

/-- The bounds at SRCB and SRCB + 1. -/
def State.bounds (s : State) (e : Fin 8) (w : Slot) : TWord × TWord × State :=
  let (lo, s) := s.readOp e w.b
  let (hi, s) := s.readOp e (w.b + 1)
  (lo, hi, s)

/-! ## Opcodes (R88) -/

/-- NOP. -/
def execNop (t : Fin 16) (s : State) : Host.Outcome State Fault Refusal := .next (s.slot t opNop fun _ _ s => s)

/-- MOV: D ← A. -/
def execMov (t : Fin 16) (s : State) : Host.Outcome State Fault Refusal :=
  .next (s.slot t opMov fun e w s => s.unary e w id)

/-- ADD: D ← sat(A + B). -/
def execAdd (t : Fin 16) (s : State) : Host.Outcome State Fault Refusal :=
  .next (s.slot t opAdd fun e w s => s.binary e w fun x y => x + y)

/-- SUB: D ← sat(A − B). -/
def execSub (t : Fin 16) (s : State) : Host.Outcome State Fault Refusal :=
  .next (s.slot t opSub fun e w s => s.binary e w fun x y => x - y)

/-- MIN. -/
def execMin (t : Fin 16) (s : State) : Host.Outcome State Fault Refusal :=
  .next (s.slot t opMin fun e w s => s.binary e w fun x y => min x y)

/-- MAX. -/
def execMax (t : Fin 16) (s : State) : Host.Outcome State Fault Refusal :=
  .next (s.slot t opMax fun e w s => s.binary e w fun x y => max x y)

/-- ABS: D ← sat(|A|). -/
def execAbs (t : Fin 16) (s : State) : Host.Outcome State Fault Refusal :=
  .next (s.slot t opAbs fun e w s => s.unary e w fun x => x.natAbs)

/-- NEG: D ← sat(−A). -/
def execNeg (t : Fin 16) (s : State) : Host.Outcome State Fault Refusal :=
  .next (s.slot t opNeg fun e w s => s.unary e w fun x => -x)

/-- CLAMP: the upper bound stands where the bounds cross. -/
def execClamp (t : Fin 16) (s : State) : Host.Outcome State Fault Refusal :=
  .next (s.slot t opClamp fun e w s =>
    let (x, s) := s.readA e w
    let (lo, hi, s) := s.bounds e w
    s.writeSat e w.dst (clampInt x.val.toInt lo.val.toInt hi.val.toInt) (x.taint || lo.taint || hi.taint))

/-- SEL: D ← A if C = 1, else B; the operand not selected does not taint (R102). -/
def execSel (t : Fin 16) (s : State) : Host.Outcome State Fault Refusal :=
  .next (s.slot t opSel fun e w s =>
    let (x, s) := s.readA e w
    let (y, s) := s.readOp e w.b
    let v := if s.tiles[t].c then x else y
    s.writeSat e w.dst v.val.toInt (v.taint || s.tiles[t].cTaint))

/-- CMPLT: C ← A < B. -/
def execCmplt (t : Fin 16) (s : State) : Host.Outcome State Fault Refusal :=
  .next (s.slot t opCmplt fun e w s => s.compare t e w fun x y => decide (x < y))

/-- CMPLE: C ← A ≤ B. -/
def execCmple (t : Fin 16) (s : State) : Host.Outcome State Fault Refusal :=
  .next (s.slot t opCmple fun e w s => s.compare t e w fun x y => decide (x ≤ y))

/-- SHL: D ← sat(A × 2^n). -/
def execShl (t : Fin 16) (s : State) : Host.Outcome State Fault Refusal :=
  .next (s.slot t opShl fun e w s => s.unary e w fun x => x * 2 ^ w.b)

/-- SHR: D ← round(A ÷ 2^n). -/
def execShr (t : Fin 16) (s : State) : Host.Outcome State Fault Refusal :=
  .next (s.slot t opShr fun e w s => s.unary e w fun x => roundDiv x (2 ^ w.b))

/-- LDI: the 36-bit immediate, SRCA its high half, times 2^(4 × MOD); no taint. -/
def execLdi (t : Fin 16) (s : State) : Host.Outcome State Fault Refusal :=
  .next (s.slot t opLdi fun e w s =>
    s.writeSat e w.dst ((BitVec.ofNat 36 (w.a * 2 ^ 18 + w.b)).toInt * 2 ^ (4 * w.md)) false)

/-- MACZ: ACC ← A × B. -/
def execMacz (t : Fin 16) (s : State) : Host.Outcome State Fault Refusal :=
  .next (s.slot t opMacz fun e w s => s.accumulate t e w false fun _ p => p)

/-- MAC: ACC ← sat88(ACC + A × B). -/
def execMac (t : Fin 16) (s : State) : Host.Outcome State Fault Refusal :=
  .next (s.slot t opMac fun e w s => s.accumulate t e w true fun a p => a + p)

/-- MSU: ACC ← sat88(ACC − A × B). -/
def execMsu (t : Fin 16) (s : State) : Host.Outcome State Fault Refusal :=
  .next (s.slot t opMsu fun e w s => s.accumulate t e w true fun a p => a - p)

/-- ACCST: D ← sat(round(ACC ÷ 2^n)). -/
def execAccst (t : Fin 16) (s : State) : Host.Outcome State Fault Refusal :=
  .next (s.slot t opAccst fun e w s => s.writeSat e w.dst (roundDiv s.tiles[t].acc.toInt (2 ^ w.b)) s.tiles[t].accTaint)

/-- MULS32: D ← sat(round(A × B ÷ 2^32)). -/
def execMuls32 (t : Fin 16) (s : State) : Host.Outcome State Fault Refusal :=
  .next (s.slot t opMuls32 fun e w s => s.binary e w fun x y => roundDiv (x * y) (2 ^ 32))

/-- INTEG: committed state plus A, saturated, then clamped; C tells whether the clamp changed it (R101). -/
def execInteg (t : Fin 16) (s : State) : Host.Outcome State Fault Refusal :=
  .next (s.slot t opInteg fun e w s =>
    let (x, s) := s.readA e w
    let (k, s) := s.readMem e (w.dst - 0x1000)
    let (lo, hi, s) := s.bounds e w
    let sum := satInt 40 (k.val.toInt + x.val.toInt)
    let y := clampInt sum lo.val.toInt hi.val.toInt
    let taint := x.taint || k.taint || lo.taint || hi.taint
    let s := (s.markSat e (saturates 40 (k.val.toInt + x.val.toInt))).writeOp e w.dst ⟨BitVec.ofInt 40 y, taint⟩
    s.modTile t fun q => { q with c := y != sum, cTaint := taint })

/-- SIN. -/
def execSin (t : Fin 16) (s : State) : Host.Outcome State Fault Refusal :=
  .next (s.slot t opSin fun e w s =>
    let (x, s) := s.readA e w
    s.writeOp e w.dst ⟨sinWord (x.val.setWidth 32), x.taint⟩)

/-- COS. -/
def execCos (t : Fin 16) (s : State) : Host.Outcome State Fault Refusal :=
  .next (s.slot t opCos fun e w s =>
    let (x, s) := s.readA e w
    s.writeOp e w.dst ⟨cosWord (x.val.setWidth 32), x.taint⟩)

/-- CHK: sets CHK_FAIL if |A − B| exceeds the word at DST, or an operand is tainted (R90, R102). -/
def execChk (t : Fin 16) (s : State) : Host.Outcome State Fault Refusal :=
  .next (s.slot t opChk fun e w s =>
    let (x, s) := s.readA e w
    let (y, s) := s.readOp e w.b
    let (d, s) := s.readOp e w.dst
    if x.taint || y.taint || d.taint || decide (((x.val.toInt - y.val.toInt).natAbs : Int) > d.val.toInt) then
      s.modPass e fun p => { p with chkFail := true } else s)

end Sys2Proof.Machine
end

