-- ==== Sys2Proof/Machine/Dispatch.lean ====
section
/-! DEFINITION. The one dispatch: each command and its meaning. -/

namespace Sys2Proof.Machine

/-- The effect of a command on everything but the queue. -/
def exec (i : Instr) (s : State) : Host.Outcome State Fault Refusal :=
  match i with
  | .downbeat e => Sys2Proof.Machine.execDownbeat e s
  | .inputDeadline e k => Sys2Proof.Machine.execInputDeadline e k s
  | .fenceReached e => Sys2Proof.Machine.execFenceReached e s
  | .tempoWindowEnd trips => Sys2Proof.Machine.execTempoWindowEnd trips s
  | .boscTrim word => Sys2Proof.Machine.execBoscTrim word s
  | .fineCalibration n => Sys2Proof.Machine.execFineCalibration n s
  | .captureRead by_ addr be => Sys2Proof.Machine.execCaptureRead by_ addr be s
  | .runSet e by_ => Sys2Proof.Machine.execRunSet e by_ s
  | .runClear e by_ => Sys2Proof.Machine.execRunClear e by_ s
  | .trefLoss seen => Sys2Proof.Machine.execTrefLoss seen s
  | .refBlendStep => Sys2Proof.Machine.execRefBlendStep s
  | .refBlendComplete => Sys2Proof.Machine.execRefBlendComplete s
  | .qualifyStart => Sys2Proof.Machine.execQualifyStart s
  | .trefQualified span word => Sys2Proof.Machine.execTrefQualified span word s
  | .trefModeWrite by_ mode => Sys2Proof.Machine.execTrefModeWrite by_ mode s
  | .trefEnWrite by_ on => Sys2Proof.Machine.execTrefEnWrite by_ on s
  | .forceBoscWrite by_ on => Sys2Proof.Machine.execForceBoscWrite by_ on s
  | .imageLoad by_ => Sys2Proof.Machine.execImageLoad by_ s
  | .imageDmaComplete data => Sys2Proof.Machine.execImageDmaComplete data s
  | .imageVerifyComplete => Sys2Proof.Machine.execImageVerifyComplete s
  | .swap by_ => Sys2Proof.Machine.execSwap by_ s
  | .swapTimeReached => Sys2Proof.Machine.execSwapTimeReached s
  | .forceLimp e by_ => Sys2Proof.Machine.execForceLimp e by_ s
  | .forceHrd e by_ => Sys2Proof.Machine.execForceHrd e by_ s
  | .tileRunStart t => Sys2Proof.Machine.execTileRunStart t s
  | .nop t => Sys2Proof.Machine.execNop t s
  | .mov t => Sys2Proof.Machine.execMov t s
  | .add t => Sys2Proof.Machine.execAdd t s
  | .sub t => Sys2Proof.Machine.execSub t s
  | .min t => Sys2Proof.Machine.execMin t s
  | .max t => Sys2Proof.Machine.execMax t s
  | .abs t => Sys2Proof.Machine.execAbs t s
  | .neg t => Sys2Proof.Machine.execNeg t s
  | .clamp t => Sys2Proof.Machine.execClamp t s
  | .sel t => Sys2Proof.Machine.execSel t s
  | .cmplt t => Sys2Proof.Machine.execCmplt t s
  | .cmple t => Sys2Proof.Machine.execCmple t s
  | .shl t => Sys2Proof.Machine.execShl t s
  | .shr t => Sys2Proof.Machine.execShr t s
  | .ldi t => Sys2Proof.Machine.execLdi t s
  | .macz t => Sys2Proof.Machine.execMacz t s
  | .mac t => Sys2Proof.Machine.execMac t s
  | .msu t => Sys2Proof.Machine.execMsu t s
  | .accst t => Sys2Proof.Machine.execAccst t s
  | .muls32 t => Sys2Proof.Machine.execMuls32 t s
  | .integ t => Sys2Proof.Machine.execInteg t s
  | .sin t => Sys2Proof.Machine.execSin t s
  | .cos t => Sys2Proof.Machine.execCos t s
  | .chk t => Sys2Proof.Machine.execChk t s
  | .checkTrigger e => Sys2Proof.Machine.execCheckTrigger e s
  | .release e by_ => Sys2Proof.Machine.execRelease e by_ s
  | .ownerWrite by_ addr value => Sys2Proof.Machine.execOwnerWrite by_ addr value s
  | .easelReset e cause => Sys2Proof.Machine.execEaselReset e cause s
  | .easelResetComplete e => Sys2Proof.Machine.execEaselResetComplete e s
  | .btestAccess e sub defect => Sys2Proof.Machine.execBtestAccess e sub defect s
  | .btestResume e by_ => Sys2Proof.Machine.execBtestResume e by_ s
  | .doorbellReadComplete e hcb => Sys2Proof.Machine.execDoorbellReadComplete e hcb s
  | .descriptorAccept e d => Sys2Proof.Machine.execDescriptorAccept e d s
  | .dmaReadFail e => Sys2Proof.Machine.execDmaReadFail e s
  | .headPoll ring => Sys2Proof.Machine.execHeadPoll ring s
  | .headPollComplete ring heads => Sys2Proof.Machine.execHeadPollComplete ring heads s
  | .completionWrite e => Sys2Proof.Machine.execCompletionWrite e s
  | .stagingDrain ring kind => Sys2Proof.Machine.execStagingDrain ring kind s
  | .ringEn e by_ on => Sys2Proof.Machine.execRingEn e by_ on s
  | .f0RingEn by_ on => Sys2Proof.Machine.execF0RingEn by_ on s
  | .linkFault cause => Sys2Proof.Machine.execLinkFault cause s
  | .linkUp speed width bme msixEn msixMask payload256 => Sys2Proof.Machine.execLinkUp speed width bme msixEn msixMask payload256 s
  | .functionLevelReset fn => Sys2Proof.Machine.execFunctionLevelReset fn s
  | .descriptorNop e => Sys2Proof.Machine.execDescriptorNop e s
  | .stateWr e => Sys2Proof.Machine.execStateWr e s
  | .bankWr e => Sys2Proof.Machine.execBankWr e s
  | .stateRd e => Sys2Proof.Machine.execStateRd e s
  | .bankRd e => Sys2Proof.Machine.execBankRd e s
  | .bankReadComplete e stalled => Sys2Proof.Machine.execBankReadComplete e stalled s
  | .ledgerAbort e by_ => Sys2Proof.Machine.execLedgerAbort e by_ s
  | .ldgSelWrite by_ value => Sys2Proof.Machine.execLdgSelWrite by_ value s
  | .adcTrigger p q => Sys2Proof.Machine.execAdcTrigger p q s
  | .sequenceStart p c => Sys2Proof.Machine.execSequenceStart p c s
  | .adcStepLand p c codes => Sys2Proof.Machine.execAdcStepLand p c codes s
  | .cal p by_ => Sys2Proof.Machine.execCal p by_ s
  | .calDone p found => Sys2Proof.Machine.execCalDone p found s
  | .podSampleLand p => Sys2Proof.Machine.execPodSampleLand p s
  | .align p frame => Sys2Proof.Machine.execAlign p frame s
  | .echo p frame => Sys2Proof.Machine.execEcho p frame s
  | .downlinkWrite p frame => Sys2Proof.Machine.execDownlinkWrite p frame s
  | .downlinkRead p frame live => Sys2Proof.Machine.execDownlinkRead p frame live s
  | .downlinkReset p frame still => Sys2Proof.Machine.execDownlinkReset p frame still s
  | .podOutput p c value overload => Sys2Proof.Machine.execPodOutput p c value overload s
  | .uplinkWordStart p live => Sys2Proof.Machine.execUplinkWordStart p live s
  | .statusDue p => Sys2Proof.Machine.execStatusDue p s
  | .sampleWord p w => Sys2Proof.Machine.execSampleWord p w s
  | .hello p w => Sys2Proof.Machine.execHello p w s
  | .status p w => Sys2Proof.Machine.execStatus p w s
  | .readRsp p w => Sys2Proof.Machine.execReadRsp p w s
  | .writeAck p w => Sys2Proof.Machine.execWriteAck p w s
  | .alarm p w => Sys2Proof.Machine.execAlarm p w s
  | .echoRsp p w => Sys2Proof.Machine.execEchoRsp p w s
  | .podPgRise p => Sys2Proof.Machine.execPodPgRise p s
  | .podPgFall p => Sys2Proof.Machine.execPodPgFall p s
  | .measureLevelCross p above => Sys2Proof.Machine.execMeasureLevelCross p above s
  | .carrierLoss p => Sys2Proof.Machine.execCarrierLoss p s
  | .darkTimeout p live => Sys2Proof.Machine.execDarkTimeout p live s
  | .phaseLock p => Sys2Proof.Machine.execPhaseLock p s
  | .altRelease p => Sys2Proof.Machine.execAltRelease p s
  | .podAlarmRaise p bits => Sys2Proof.Machine.execPodAlarmRaise p bits s
  | .activeBurst p live => Sys2Proof.Machine.execActiveBurst p live s
  | .burstReceive p burst => Sys2Proof.Machine.execBurstReceive p burst s
  | .slEn p by_ on => Sys2Proof.Machine.execSlEn p by_ on s
  | .retrain p by_ => Sys2Proof.Machine.execRetrain p by_ s
  | .chargeTimeout p => Sys2Proof.Machine.execChargeTimeout p s
  | .chargeRetry p => Sys2Proof.Machine.execChargeRetry p s
  | .linkSilence p => Sys2Proof.Machine.execLinkSilence p s
  | .podAnswerTimeout p => Sys2Proof.Machine.execPodAnswerTimeout p s
  | .budgetWindowStart p => Sys2Proof.Machine.execBudgetWindowStart p s
  | .carrierCapCut p => Sys2Proof.Machine.execCarrierCapCut p s
  | .slAccRead p by_ addr => Sys2Proof.Machine.execSlAccRead p by_ addr s
  | .slAccWrite p by_ addr data => Sys2Proof.Machine.execSlAccWrite p by_ addr data s
  | .updatePosition l => Sys2Proof.Machine.execUpdatePosition l s
  | .driveEdge l => Sys2Proof.Machine.execDriveEdge l s
  | .deadTimeElapsed l => Sys2Proof.Machine.execDeadTimeElapsed l s
  | .legRelease l => Sys2Proof.Machine.execLegRelease l s
  | .comparatorCrossing c v => Sys2Proof.Machine.execComparatorCrossing c v s
  | .comparatorSample => Sys2Proof.Machine.execComparatorSample s
  | .blankWindowEnd c => Sys2Proof.Machine.execBlankWindowEnd c s
  | .dacSettled c => Sys2Proof.Machine.execDacSettled c s
  | .fltAssert l => Sys2Proof.Machine.execFltAssert l s
  | .fltDeassert l => Sys2Proof.Machine.execFltDeassert l s
  | .chokeGroupRelease g => Sys2Proof.Machine.execChokeGroupRelease g s
  | .cgClr g by_ => Sys2Proof.Machine.execCgClr g by_ s
  | .cgForce g by_ on => Sys2Proof.Machine.execCgForce g by_ on s
  | .choke r => Sys2Proof.Machine.execChoke r s
  | .latch r => Sys2Proof.Machine.execLatch r s
  | .post r => Sys2Proof.Machine.execPost r s
  | .trigger r => Sys2Proof.Machine.execTrigger r s
  | .routeForceLimp r => Sys2Proof.Machine.execRouteForceLimp r s
  | .wheelEn by_ on => Sys2Proof.Machine.execWheelEn by_ on s
  | .wheelCorrection => Sys2Proof.Machine.execWheelCorrection s
  | .coastExpire => Sys2Proof.Machine.execCoastExpire s
  | .limpEdge => Sys2Proof.Machine.execLimpEdge s
  | .limpLost => Sys2Proof.Machine.execLimpLost s
  | .wheelBlendStep => Sys2Proof.Machine.execWheelBlendStep s
  | .primaryQualified => Sys2Proof.Machine.execPrimaryQualified s
  | .angleArm k => Sys2Proof.Machine.execAngleArm k s
  | .angleEventFire k => Sys2Proof.Machine.execAngleEventFire k s
  | .evaluationTick => Sys2Proof.Machine.execEvaluationTick s
  | .pointAsserted k => Sys2Proof.Machine.execPointAsserted k s
  | .measAgeTrip => Sys2Proof.Machine.execMeasAgeTrip s
  | .tapStart => Sys2Proof.Machine.execTapStart s
  | .tapPhaseEnd => Sys2Proof.Machine.execTapPhaseEnd s
  | .estStarve => Sys2Proof.Machine.execEstStarve s
  | .estStale => Sys2Proof.Machine.execEstStale s
  | .mpptStep k => Sys2Proof.Machine.execMpptStep k s
  | .gfEn by_ on => Sys2Proof.Machine.execGfEn by_ on s
  | .tapNow by_ => Sys2Proof.Machine.execTapNow by_ s
  | .tripClr by_ => Sys2Proof.Machine.execTripClr by_ s
  | .islClr by_ => Sys2Proof.Machine.execIslClr by_ s
  | .mpEn k by_ on => Sys2Proof.Machine.execMpEn k by_ on s
  | .frameInstant => Sys2Proof.Machine.execFrameInstant s
  | .frameClose => Sys2Proof.Machine.execFrameClose s
  | .mtrEstTimeout m => Sys2Proof.Machine.execMtrEstTimeout m s
  | .mtrEn by_ on => Sys2Proof.Machine.execMtrEn by_ on s
  | .mtrClr by_ => Sys2Proof.Machine.execMtrClr by_ s
  | .eplsPulseStart => Sys2Proof.Machine.execEplsPulseStart s
  | .eplsPulseEnd => Sys2Proof.Machine.execEplsPulseEnd s
  | .bkSample line neutral vbatMv => Sys2Proof.Machine.execBkSample line neutral vbatMv s
  | .bkClr by_ => Sys2Proof.Machine.execBkClr by_ s
  | .auxRequestApply => Sys2Proof.Machine.execAuxRequestApply s
  | .tachEdge n level => Sys2Proof.Machine.execTachEdge n level s
  | .fcsSample n code => Sys2Proof.Machine.execFcsSample n code s
  | .spinTEnd n => Sys2Proof.Machine.execSpinTEnd n s
  | .tlossTEnd n => Sys2Proof.Machine.execTlossTEnd n s
  | .pauseTEnd n => Sys2Proof.Machine.execPauseTEnd n s
  | .pullTEnd n => Sys2Proof.Machine.execPullTEnd n s
  | .hsLeadEnd n => Sys2Proof.Machine.execHsLeadEnd n s
  | .coilTurnOff n => Sys2Proof.Machine.execCoilTurnOff n s
  | .coilForceOff n => Sys2Proof.Machine.execCoilForceOff n s
  | .dschTrigger k => Sys2Proof.Machine.execDschTrigger k s
  | .dschCut => Sys2Proof.Machine.execDschCut s
  | .dschCutClear => Sys2Proof.Machine.execDschCutClear s
  | .dschFail => Sys2Proof.Machine.execDschFail s
  | .dschClr by_ => Sys2Proof.Machine.execDschClr by_ s
  | .supplyHoldEnter supply => Sys2Proof.Machine.execSupplyHoldEnter supply s
  | .supplyResume supply => Sys2Proof.Machine.execSupplyResume supply s
  | .deviceReset cause => Sys2Proof.Machine.execDeviceReset cause s
  | .resetRelease => Sys2Proof.Machine.execResetRelease s
  | .bootDone fuseErr schedFail bistFail => Sys2Proof.Machine.execBootDone fuseErr schedFail bistFail s
  | .backupPowerOn => Sys2Proof.Machine.execBackupPowerOn s
  | .vbatTest beforeMv loadMv => Sys2Proof.Machine.execVbatTest beforeMv loadMv s
  | .nrstAssert => Sys2Proof.Machine.execNrstAssert s
  | .nrstSecond => Sys2Proof.Machine.execNrstSecond s
  | .clkmon condition => Sys2Proof.Machine.execClkmon condition s
  | .watchdogEnable w by_ => Sys2Proof.Machine.execWatchdogEnable w by_ s
  | .watchdogKey w by_ key => Sys2Proof.Machine.execWatchdogKey w by_ key s
  | .watchdogLate w => Sys2Proof.Machine.execWatchdogLate w s
  | .dwdResetDelay => Sys2Proof.Machine.execDwdResetDelay s
  | .killAssert => Sys2Proof.Machine.execKillAssert s
  | .safeClr by_ => Sys2Proof.Machine.execSafeClr by_ s
  | .spNop frame => Sys2Proof.Machine.execSpNop frame s
  | .spRead frame => Sys2Proof.Machine.execSpRead frame s
  | .spWrite frame => Sys2Proof.Machine.execSpWrite frame s
  | .dataHi frame => Sys2Proof.Machine.execDataHi frame s
  | .dataLo frame => Sys2Proof.Machine.execDataLo frame s
  | .kill frame => Sys2Proof.Machine.execKill frame s
  | .spLock by_ => Sys2Proof.Machine.execSpLock by_ s
  | .keyProg by_ slot => Sys2Proof.Machine.execKeyProg by_ slot s
  | .keyBurnDone => Sys2Proof.Machine.execKeyBurnDone s
  | .keyRevoke by_ slot => Sys2Proof.Machine.execKeyRevoke by_ slot s
  | .debugOpen by_ on => Sys2Proof.Machine.execDebugOpen by_ on s
  | .debugBlow by_ => Sys2Proof.Machine.execDebugBlow by_ s
  | .preloadPoint e => Sys2Proof.Machine.execPreloadPoint e s
  | .preload e by_ on => Sys2Proof.Machine.execPreload e by_ on s
  | .lockSet by_ groups => Sys2Proof.Machine.execLockSet by_ groups s
  | .setupRegisterWrite by_ addr be value => Sys2Proof.Machine.execSetupRegisterWrite by_ addr be value s
  | .qualifyCycle periodPs => Sys2Proof.Machine.execQualifyCycle periodPs s
  | .supplyLevelCross supply level => Sys2Proof.Machine.execSupplyLevelCross supply level s
  | .supplyRestored supply => Sys2Proof.Machine.execSupplyRestored supply s
  | .killDeassert => Sys2Proof.Machine.execKillDeassert s
  | .dbgLockBlown => Sys2Proof.Machine.execDbgLockBlown s
  | .fpwmPeriodStart n => Sys2Proof.Machine.execFpwmPeriodStart n s

end Sys2Proof.Machine
end

