-- ==== Sys2Proof/Safety.lean ====
section
/-! DEFINITION. The terms in which the statements speak: what a safe state is, and what a command may touch. -/

namespace Sys2Proof.Machine

/-! ## Safe states -/

/-- No leg drives both of its gate pins high (the last item of R3). -/
abbrev State.PinsExclusive (s : State) : Prop := ∀ l : Fin 64, ¬ (s.legs[l].gh = true ∧ s.legs[l].gl = true)

/-- Both pins of a leg that is choked are low (R246), whatever its easel does (R3). -/
abbrev State.ChokedLow (s : State) : Prop :=
  ∀ l : Fin 64, s.flag (R.LEG_STATUS_CHOKED l) = true → s.legs[l].gh = false ∧ s.legs[l].gl = false

/-- The register file is listed in order of address, each register once. -/
abbrev State.RegsInOrder (s : State) : Prop := Cells.rising 0 s.regs = true

/-- The form of the memory of an easel: the words of the bank, of the state file and of the pass-local stores are listed in order
of address, and no vacant word is listed. -/
abbrev Easel.MemCanonical (z : Easel) : Prop := Cells.wf (fun _ => vacantPhys) z.mem = true

/-- The memory of every easel that is predictable is in canonical form. -/
abbrev State.MemCanonical (s : State) : Prop := ∀ e : Fin 8, (s.ez e).unpred = false → (s.ez e).MemCanonical

/-- Nothing is unpredictable: no easel (R2) and no global register (R4, R408). -/
abbrev State.Predictable (s : State) : Prop := s.unpredRegs = [] ∧ ∀ e : Fin 8, (s.ez e).unpred = false

/-! ## What a command touches -/

/-- The parts of the state beside registers, easels and legs. -/
inductive Part where
  | time
  | caps
  | locks
  | timebase
  | fuses
  | image
  | tiles
  | f0Poll
  | bme
  | functions
  | inputs
  | comparators
  | groups
  | router
  | adc
  | links
  | pods
  | wheel
  | grid
  | metering
  | aux
  | supervision
  | unpredictable
  | outbox
  | free
deriving DecidableEq, Repr

/-- A part is the same in two states. -/
def Part.Same (p : Part) (s t : State) : Prop :=
  match p with
  | .time => t.time = s.time ∧ t.age = s.age ∧ t.fine = s.fine
  | .caps => t.caps = s.caps
  | .locks => t.lockNext = s.lockNext
  | .timebase => t.tb = s.tb
  | .fuses => t.fuses = s.fuses
  | .image => t.img = s.img
  | .tiles => t.tiles = s.tiles
  | .f0Poll => t.f0Poll = s.f0Poll ∧ t.f0PollStale = s.f0PollStale ∧ t.f0PollFrom = s.f0PollFrom
  | .bme => t.bme = s.bme
  | .functions => t.pcie = s.pcie ∧ t.turn = s.turn
  | .inputs => t.ain = s.ain
  | .comparators => t.cmps = s.cmps
  | .groups => t.groups = s.groups
  | .router => t.router = s.router
  | .adc => t.adc = s.adc ∧ t.picked = s.picked
  | .links => t.links = s.links
  | .pods => t.pods = s.pods
  | .wheel => t.wheel = s.wheel
  | .grid => t.grid = s.grid
  | .metering => t.mtr = s.mtr
  | .aux => t.aux = s.aux
  | .supervision => t.sup = s.sup
  | .unpredictable => t.unpredRegs = s.unpredRegs
  | .outbox => t.outbox = s.outbox
  | .free => t.freeCount = s.freeCount

/-- What a command may touch: registers by address, easels, legs, and other parts. -/
structure Footprint where
  regs : Nat → Bool := fun _ => false
  easels : Fin 8 → Bool := fun _ => false
  legs : Fin 64 → Bool := fun _ => false
  parts : List Part := []

/-- The footprint of some registers, other parts, easels and legs. -/
def touches (regs : List Nat := []) (parts : List Part := []) (easels : List (Fin 8) := []) (legs : List (Fin 64) := []) :
    Footprint :=
  { regs := regs.contains, parts := parts, easels := easels.contains, legs := legs.contains }

/-- An event of a code waits in a staging buffer, with `now` as the time of its latest occurrence. -/
abbrev Staged (q : Staging EventE) (code : Nat) (now : Time) : Prop := ∃ x ∈ q.entries, x.code = code ∧ x.tLast = stamp now

/-- The registers that the staging of events keeps: RING_STATUS and EVT_DROP_CNT of each easel, and F0_RING_STATUS (R144). -/
def eventReg (a : Nat) : Bool :=
  a == 0x4054 || (decide (0x800000 ≤ a) && (a % 0x10000 == 0xA20 || a % 0x10000 == 0xA34))

/-- `t` differs from `s` only within a footprint, in the staging of events with its registers, and in the books of the coarse
tick in progress. -/
structure Keeps (w : Footprint) (s t : State) : Prop where
  queue : t.pending = s.pending
  regs : ∀ a, w.regs a = false → eventReg a = false → t.raw a = s.raw a
  easels : ∀ e, w.easels e = false → ∃ q, t.ez e = { s.ez e with evt := q }
  legs : ∀ l : Fin 64, w.legs l = false → t.legs[l] = s.legs[l]
  parts : ∀ p, w.parts.contains p = false → p.Same s t

/-! ## The check -/

/-- The prediction of input `i` of easel `e` as a read finds it, and how far the landed value lies from it. -/
abbrev State.predOf (s : State) (e : Fin 8) (i : Nat) : TWord := (s.readMem e (predBase + i)).1
abbrev State.missBy (s : State) (e : Fin 8) (i : Nat) : Nat :=
  ((s.readMem e (landBase + i)).1.val.toInt - (s.predOf e i).val.toInt).natAbs

/-- Is the check of input `i` of a pass a miss (R96)? -/
def State.inputMisses (s : State) (e : Fin 8) (p : Pass) (i : Nat) : Bool :=
  (s.predOf e i).taint || decide ((s.passHalf p).inTol (s.passEntry e p) i < s.missBy e i)

/-- Does input `i` lie outside its plausibility bound, with a prediction that is not tainted (R104)? -/
def State.implausible (s : State) (e : Fin 8) (i : Nat) : Bool :=
  !(s.predOf e i).taint && decide (s.get2 (R.PLB_HI_PLB_HI e i) (R.PLB_LO_PLB_LO e i) < s.missBy e i)

/-- The class P counter of input `i` after its compare (R104; its stop at 255 is the model's choice, log entry 96). -/
def State.missesAfter (s : State) (e : Fin 8) (i : Nat) : Nat :=
  if (s.predOf e i).taint then s.get (R.PCTL_MISS e i)
  else if s.implausible e i then min 255 (s.get (R.PCTL_MISS e i) + 1) else 0

/-- Does the compare of input `i` raise a fault of class P (R104)? -/
def State.faultsAt (s : State) (e : Fin 8) (i : Nat) : Bool :=
  s.implausible e i && s.get (R.PCTL_N e i) != 0 && decide (s.get (R.PCTL_N e i) ≤ s.missesAfter e i)

/-- What the check of an easel may touch: its memory books, the class P counters, the counts of scrapes and speculation, the
runs in progress. -/
def checkTouches (e : Fin 8) : Footprint :=
  { regs := fun a => [(R.ECC_CNT_CE_CNT e).addr, (R.MEM_STATUS_CE e).addr, (R.ECC_ADDR_ADDR e).addr, (R.SCRAPE_CNT_COUNT e).addr,
      (R.SPEC_CNT_COUNT e).addr, (R.ENG_STATUS_SPEC_OVF e).addr].contains a || (fins 64).any fun i => a == (R.PCTL_MISS e i).addr,
    easels := (· == e), parts := [.free, .tiles] }

/-! ## Legs and comparators -/

/-- The age from which the next update position of leg `l` counts. -/
def State.updateFrom (s : State) (l : Fin 64) : Nat :=
  match (s.leg l).lastUpd with
  | some t => max s.age (t + 1)
  | none => s.age

/-- The state at the next coarse tick at which comparators and router have not been sampled. -/
def State.atSample (s : State) : State :=
  match s.router.at_ with
  | some t => s.reachAge (s.coarseAt (max s.age (t + 1)))
  | none => s.reachCoarse

/-- Leg `l` is choked, with both pins low. -/
abbrev State.dark (s : State) (l : Fin 64) : Prop :=
  s.flag (R.LEG_STATUS_CHOKED l) = true ∧ (s.leg l).gh = false ∧ (s.leg l).gl = false

/-- Between two states each group of a mask has become active; where it was not, HIT is set and HIT_CNT counts with its stop, and
its legs have the GROUP cause and are dark (R248). -/
abbrev GroupsOn (s t : State) (mask : Nat) : Prop :=
  ∀ g : Fin 16, mask / 2 ^ g.val % 2 = 1 → t.groupActive g = true ∧ (s.groupActive g = false →
    t.flag (R.CG_CTRL_HIT g) = true ∧
    t.get (R.CG_CTRL_HIT_CNT g) = min (R.CG_CTRL_HIT_CNT g).top (s.get (R.CG_CTRL_HIT_CNT g) + 1) ∧
    ∀ k : Fin 64, s.inGroup g k = true → t.bit (R.LEG_STATUS_CAUSE k) causeGroup = true ∧ t.dark k)

/-- Is leg `k` one of a list, or in a group of a mask? -/
def State.reachedBy (s : State) (mask : Nat) (own : List (Fin 64)) (k : Fin 64) : Bool :=
  own.contains k || (fins 16).any fun g => mask / 2 ^ g.val % 2 == 1 && s.inGroup g k

/-- What the activation of the groups of a mask may touch, with some legs of its source: their own registers, the groups, and the
blanking windows that falling pins open. -/
def State.groupTouches (s : State) (mask : Nat) (own : List (Fin 64)) : Footprint :=
  { regs := fun a => (fins 16).any (fun g => mask / 2 ^ g.val % 2 == 1 && a == (R.CG_CTRL_FORCE g).addr)
      || (fins 64).any (fun k => s.reachedBy mask own k && a == (R.LEG_STATUS_CAUSE k).addr),
    legs := fun k => s.reachedBy mask own k, parts := [.groups, .comparators] }

/-- The comparators that watch input `i`, and the groups that they name. -/
def State.watchers (s : State) (i : Fin 48) : List (Fin 64) :=
  (fins 64).filter fun d => Fin.ofNat 48 (s.get (R.CMP_CFG_AIN d)) == i
def State.watchMask (s : State) (i : Fin 48) : Nat :=
  (s.watchers i).foldl (fun (m : Nat) (d : Fin 64) => m ||| s.get (R.CMP_GRP_GRP_UP d) ||| s.get (R.CMP_GRP_GRP_DN d)) 0

/-- What a new voltage on input `i` may touch. -/
def State.inputTouches (s : State) (i : Fin 48) : Footprint :=
  { s.groupTouches (s.watchMask i) [] with
    regs := fun a => (s.groupTouches (s.watchMask i) []).regs a || (s.watchers i).any fun d => a == (R.CMP_STATUS_RAW_ABOVE d).addr,
    parts := [.inputs, .comparators, .groups, .free] }

/-- Between two states group `g` has ended its activity: its sources are gone, and the GROUP cause of each of its legs that no
other active group holds is clear. -/
abbrev GroupOff (s t : State) (g : Fin 16) : Prop :=
  t.groupActive g = false ∧ t.groups[g] = [] ∧ ∀ k : Fin 64, s.inGroup g k = true →
    (∀ h : Fin 16, h ≠ g → s.groupActive h = true → s.inGroup h k = false) → t.bit (R.LEG_STATUS_CAUSE k) causeGroup = false

/-! ## Conversion -/

/-- Between two states sequence `x.seq` of pair `p` has started (R188): its LEN_M1 + 1 steps are to land after `old`, the first with
its first conversion now, N conversions 40 ns apart each (INTERLEAVE: 20 ns apart, a second sample by converter B moved by its
skew), each step following on; the converter is free where the next step would start. -/
abbrev SequenceStarts (u t : State) (p : Fin 8) (x : AdcPend) (old : List AdcLand) : Prop :=
  ∃ (steps : List AdcLand) (free : Nat),
    (t.conv p (u.convOf p x.seq)).lands = old ++ steps ∧ (t.conv p (u.convOf p x.seq)).run = some (x, free) ∧
    steps.length = u.get (R.ADC_SEQ_LEN_M1 p x.seq) + 1 ∧ (steps.head?.map fun y => y.first) = some u.age ∧
    ∀ (k : Nat) (y : AdcLand) (n : Nat), steps[k]? = some y → n = (R.STEP_AVG_M1 0 0).read y.cfg →
      y.seq = x.seq ∧ y.step = u.get (R.ADC_SEQ_FIRST p x.seq) + k ∧ y.cfg = u.word (R.STEP_AIN p y.step) ∧ y.inter = u.inter p ∧
      y.defer = (x.late || decide (x.trig < u.age)) ∧ y.coast = x.coast ∧
      (u.inter p = false → y.last = y.first + 500 * n) ∧
      (u.inter p = true → (y.last : Int) = max 0 ((y.first + 250 * n : Nat) +
        (if n % 2 = 1 then (BitVec.ofNat 4 (u.get (R.ADC_PCTRL_SKEW_B p))).toInt else 0))) ∧
      (∀ z, steps[k + 1]? = some z → z.first = if u.inter p then y.first + 250 * n + (if n % 2 = 1 then 250 else 500)
        else y.first + 500 * n + 500) ∧
      (k + 1 = steps.length → free = y.first + (if u.inter p then 250 else 500) * n + 500)

/-- Between two states the trigger `x` of an armed sequence of pair `p`, which easel `e` owns, has been served (R192): a sequence
that runs or waits drops it, counted modulo 2^32 and posted; one with a lower number than the sequence that started at this instant
goes before it; else it waits on a busy converter and starts on a free one. -/
abbrev TriggerServed (u t : State) (p : Fin 8) (x : AdcPend) (e : Fin 8) : Prop :=
  ∀ c : Fin 2, c = u.convOf p x.seq →
    (u.seqRuns (u.conv p c) x.seq = true ∨ (u.conv p c).waits x.seq = true → t.adc = u.adc ∧
      t.get (R.TRIG_DROP_CNT_COUNT e) = (u.get (R.TRIG_DROP_CNT_COUNT e) + 1) % 2 ^ 32 ∧
      ((u.ez e).evt.entries.length < 31 → Staged (t.ez e).evt 0x201 u.time)) ∧
    (u.seqRuns (u.conv p c) x.seq = false → (u.conv p c).waits x.seq = false →
      (∀ y b, (u.conv p c).run = some (y, b) → u.goesBefore (u.conv p c) x.seq = true →
        (t.conv p c).pend = pendInsert y (u.conv p c).pend ∧
        SequenceStarts u t p x ((u.conv p c).lands.filter fun z => z.seq != y.seq || decide (z.first < u.age))) ∧
      (u.goesBefore (u.conv p c) x.seq = false → u.convBusy (u.conv p c) = true →
        (t.conv p c).pend = pendInsert x (u.conv p c).pend ∧ (t.conv p c).run = (u.conv p c).run ∧
        (t.conv p c).lands = (u.conv p c).lands) ∧
      (u.convBusy (u.conv p c) = false → (t.conv p c).pend = (u.conv p c).pend ∧ SequenceStarts u t p x (u.conv p c).lands)) ∧
    Keeps (touches [(R.TRIG_DROP_CNT_COUNT e).addr, (R.Q_STATUS_TDROP_OVF e).addr] [.adc]) u t

/-! ## Links -/

/-- What a command of link `p` may touch: its registers, PGD of its channels, the links, the pulses of the router. -/
def linkTouches (p : Fin 16) : Footprint :=
  { regs := fun a => decide (a / 0x80 = 0xF0 + p.val) || decide (a / 0x40 = 0x1C0 + p.val), parts := [.links, .router] }

/-- Only link `p`, its registers and PGD of its channels differ. -/
def LinkOnly (s t : State) (p : Fin 16) : Prop :=
  Keeps (linkTouches p) s t ∧ ∀ k : Fin 16, k ≠ p → t.link k = s.link k

/-- Only pod `p` differs. -/
def PodOnly (s t : State) (p : Fin 16) : Prop := Keeps (touches [] [.pods]) s t ∧ ∀ k : Fin 16, k ≠ p → t.pod k = s.pod k

/-- The alarm words that new alarm bits bring: one for each that is enabled (R227). -/
def Pod.newAlarms (x : Pod) (bits : BitVec 16) : Nat :=
  ((fins 8).filter fun i => bits.getLsbD i.val && !x.alarms.getLsbD i.val && (x.reg 0x06).getLsbD i.val).length

/-- The frame that link `p` has sent between two states, with the next sequence number, at its place on the grid of R209. -/
abbrev SendsFrame (s t : State) (p : Fin 16) (cmd addr data : Nat) : Prop :=
  (t.link p).frames = (s.link p).frames ++ [(mkFrame cmd ((s.link p).seq + 1) addr data, s.frameEnds p)] ∧
    (t.link p).seq = (s.link p).seq + 1

/-- Between two states the link has entered TRAIN (R222, R223): no channel is up, RETRAIN_CNT counts, the shadows are in force,
the first frame is RESET for causes 4 and 5, ECHO for the others, and SL_TRAIN is posted. -/
abbrev EntersTrain (s t : State) (p : Fin 16) (cause : Nat) : Prop :=
  t.slState p = slTrain ∧ t.get (R.SL_STATUS_CH_UP p) = 0 ∧ (t.link p).cause = cause ∧ (t.link p).cfg = s.shadows p ∧
  (t.link p).stepAt = t.age ∧ t.get (R.SL_COUNTS_RETRAIN_CNT p) = min 255 (s.get (R.SL_COUNTS_RETRAIN_CNT p) + 1) ∧
  (t.link p).train = (if cause = 4 ∨ cause = 5 then .reset else .echo 2) ∧
  SendsFrame s t p (if cause = 4 ∨ cause = 5 then cmdReset else cmdEcho) 0 0 ∧
  (s.f0.entries.length < 30 → Staged t.f0 0x301 s.time)

/-- Between two states an attempt of the link has failed (R222): with RETRY_MAX failures in a row it is in FAULT without
carrier, else the count has risen. -/
abbrev Fails (s t : State) (p : Fin 16) : Prop :=
  (t.link p).fails = (s.link p).fails + 1 ∧
  (s.get (R.SL_CTRL_RETRY_MAX p) ≤ (s.link p).fails + 1 → t.slState p = slFault ∧ t.level p = 0)

/-! ## The phase wheel -/

/-- Between two states the wheel has entered a state (R263, R264, R271): its books start anew, COAST and FAIL are counted,
IDLE, ACQUIRE and FAIL leave no event armed, FAIL pulses the slots that ask for it, and WHEEL_STATE is posted. -/
abbrev WheelEnters (s t : State) (st : Nat) : Prop :=
  t.whl = st ∧ t.wheel.entryAdv = t.wheel.adv ∧ t.get R.WHL_STATUS_QUAL_TURNS = 0 ∧
  (st = whlCoast → t.get R.WHL_STATUS_LOSS_CNT = min 255 (s.get R.WHL_STATUS_LOSS_CNT + 1)) ∧
  (st = whlFail → t.get R.WHL_STATUS_FAIL_CNT = min 255 (s.get R.WHL_STATUS_FAIL_CNT + 1) ∧
    ∀ k : Fin 8, s.get (R.WHL_ECTL_MODE k) = 2 → t.router.pulses.getLsbD (0xD0 + k.val) = true) ∧
  (whlFires st = false ∧ st ≠ whlLimp → ∀ k : Fin 40, t.wheel.slots[k].armed = none) ∧
  (s.f0.entries.length < 31 → Staged t.f0 0x400 s.time)

/-- The registers of the wheel that its own events write. -/
def wheelRegs : List Nat :=
  [R.WHL_STATUS_STATE.addr, R.WHL_FREQ_FREQ.addr, R.WHL_LSTAT_EDGES.addr]

/-! ## Fans -/

/-- Between two states fan `n` has stalled (R323): the stall counts, and it pauses for another kick, or is in FAULT after three. -/
abbrev FanStalls (s t : State) (n : Fin 4) : Prop :=
  t.get (R.FAN_STATUS_STALL_CNT n) = min 255 (s.get (R.FAN_STATUS_STALL_CNT n) + 1) ∧
  (s.get (R.FAN_STATUS_KICKS n) < 3 →
    t.fanState n = fanPause ∧ t.get (R.FAN_STATUS_KICKS n) = s.get (R.FAN_STATUS_KICKS n) + 1) ∧
  (s.get (R.FAN_STATUS_KICKS n) = 3 → t.fanState n = fanFault)

/-- Only fan `n` differs, with its status. -/
def FanOnly (s t : State) (n : Fin 4) : Prop :=
  Keeps (touches [(R.FAN_STATUS_STATE n).addr] [.aux]) s t ∧ (∀ k : Fin 4, k ≠ n → t.fan k = s.fan k) ∧
    t.aux.coils = s.aux.coils ∧ t.aux.clamp = s.aux.clamp ∧ t.aux.d = s.aux.d ∧ t.aux.w = s.aux.w

/-- Only coil `n` differs. -/
def CoilOnly (s t : State) (n : Fin 8) : Prop :=
  Keeps (touches [] [.aux]) s t ∧ (∀ k : Fin 8, k ≠ n → t.coil k = s.coil k) ∧ t.aux.fans = s.aux.fans ∧
    t.aux.clamp = s.aux.clamp ∧ t.aux.d = s.aux.d ∧ t.aux.w = s.aux.w

/-- What the requests of coils and of the discharge may touch beside the drives themselves. -/
def auxTouches : Footprint :=
  { parts := [.aux], regs := fun a => a == R.DSCH_STATUS_ON.addr || (fins 4).any (fun n => a == (R.FAN_STATUS_STATE n).addr)
      || (fins 2).any fun g => a == (R.CLMP_STATUS_HS_ON g).addr || a == (R.CLMP_CNT_DELAY_CNT g).addr }

/-! ## Safe state and watchdogs -/

/-- Between two states a cause of the safe state has been latched (R355, R356): it shows in CAUSE, and the device is in the safe
state; where it was not, every leg has the DEVICE cause and is dark. -/
abbrev SafeEnters (s t : State) (c : Nat) : Prop :=
  t.bit R.SAFE_STATUS_CAUSE c = true ∧ t.inSafe = true ∧
  (s.inSafe = false → ∀ l : Fin 64, t.bit (R.LEG_STATUS_CAUSE l) causeDevice = true ∧
    (s.bit (R.LEG_STATUS_CAUSE l) causeDevice = false → t.dark l))

/-- Between two states watchdog `w` has faulted with a code (R352 to R354): T is 0, LAST holds the code, the fault counts; an
easel's watchdog resets its easel, the watchdog of the device latches the DWD cause, and with RST = 1 owes a device reset. -/
abbrev WatchdogFaults (s t : State) (w : Fin 9) (code : Nat) : Prop :=
  t.get (wdT w) = 0 ∧ t.get (wdLast w) = code ∧
  t.get (wdCnt w) = min (wdCnt w).top (s.get (wdCnt w) + 1) ∧
  (∀ e : Fin 8, e.val = w.val → (t.ez e).reset.isSome = true ∧ t.run e = false ∧ t.wdHalted w = true) ∧
  (w.val = 8 → SafeEnters s t safeDwd ∧ t.flag R.DWD_STATUS_FAULT = true ∧
    (s.flag R.DWD_CTRL_RST = true → t.sup.dwdReset.isSome = true))

/-- `t` is the state that device reset for a cause leaves of `s` (R182, R184, R347 to R349): time 0, no easel, leg or event state; what
lies outside the device, in the backup domain or in fuses stays, with the cause and RESET_AFTER set. -/
abbrev DeviceResets (s t : State) (c : DeviceResetCause) : Prop :=
  (t.sup.inReset = true ∧ t.time = 0 ∧ t.age = s.age ∧ t.f0 = {} ∧ (∀ e : Fin 8, t.ez e = {}) ∧ ∀ l : Fin 64, t.legs[l] = {}) ∧
  (t.pending = s.pending ∧ t.pods = s.pods ∧ t.ain = s.ain ∧ t.outbox = s.outbox ∧ t.fuses = { s.fuses with burn := none } ∧
    t.mtr.residue = s.mtr.residue ∧ t.sup.supplies = s.sup.supplies ∧ t.sup.restored = s.sup.restored ∧
    t.sup.releaseFrom = s.sup.releaseFrom ∧ (∀ n : Fin 4, (t.fan n).pin = (s.fan n).pin) ∧
    ∀ p : Fin 16, s.get (R.SL_STATUS_LEVEL p) ≠ 0 → (t.link p).carrierAt = s.age) ∧
  (t.flag (resetField c) = true ∧ t.inSafe = true ∧ t.flag R.SAFE_STATUS_KILL_IN = s.flag R.SAFE_STATUS_KILL_IN ∧
    (∀ l : Fin 64, t.flag (R.LEG_STATUS_FLT_IN l) = (s.fltPin l != t.flag (R.LEG_FLT_FLT_POL l))) ∧
    (∀ e : Fin 8, t.flag (R.CK_INFO_VALID e) = s.flag (R.CK_INFO_VALID e) ∧
      (s.flag (R.CK_INFO_VALID e) = true → t.flag (R.CK_INFO_RESET_AFTER e) = true)) ∧
    (c = .nrst → t.sup.nrst = true ∧ t.get R.NRST_HELD_SECONDS = 0)) ∧
  (∀ a, a ≠ R.RST_CAUSE_POR.addr → a ≠ R.NRST_HELD_SECONDS.addr → (∀ e : Fin 8, a ≠ (R.CK_INFO_VALID e).addr) →
    (t.raw a).toNat &&& regBackup a = (s.raw a).toNat &&& regBackup a) ∧
  ∀ a, regBackup a = 0 → a ≠ R.SAFE_STATUS_KILL_IN.addr → (∀ l : Fin 64, a ≠ (R.LEG_STATUS_FLT_IN l).addr) →
    t.raw a = BitVec.ofNat 32 (regReset a)

/-! ## The safety port -/

/-- Does an open write await DATA_HI, or DATA_LO, with a sequence number (R361)? -/
def awaitsHi (x : SpStage) (q : BitVec 4) : Bool :=
  match x with
  | .writing _ r => r == q
  | _ => false
def awaitsLo (x : SpStage) (q : BitVec 4) : Bool :=
  match x with
  | .writingLo _ r _ => r == q
  | _ => false

/-! ## Slot words -/

/-- Tile `x` is about to execute a slot word with opcode `op`, one that the tables allow, of its run `r`, which has effect. -/
abbrev State.executes (s : State) (x : Fin 16) (r : Run) (op : Nat) : Prop :=
  s.tiles[x].run = some r ∧ r.dead = false ∧ r.mute = false ∧ (s.slotAt r).op = op ∧
    slotOk ((s.img.half r.half).runSeg r.header) (s.slotAt r) = true

/-- Operand A of the slot word of a run, with its modifier; operand B; the word after B; the word at DST. -/
abbrev State.opA (s : State) (r : Run) : TWord := (s.readA r.easel (s.slotAt r)).1
abbrev State.opB (s : State) (r : Run) : TWord := (s.readOp r.easel (s.slotAt r).b).1
abbrev State.opB1 (s : State) (r : Run) : TWord := (s.readOp r.easel ((s.slotAt r).b + 1)).1
abbrev State.opD (s : State) (r : Run) : TWord := (s.readOp r.easel (s.slotAt r).dst).1

/-- Did the modifier of operand A saturate? -/
abbrev State.satA (s : State) (r : Run) : Bool :=
  decide ((s.slotAt r).md = 1) && saturates 40 (-(s.readOp r.easel (s.slotAt r).a).1.val.toInt)

/-- What reads of an easel's memory may touch: the easel, its error registers, and the next free value. -/
def memoryTouches (e : Fin 8) : Footprint :=
  touches [(R.ECC_CNT_CE_CNT e).addr, (R.MEM_STATUS_CE e).addr, (R.ECC_ADDR_ADDR e).addr] [.free] [e]

/-- The tile with ACC saturated to 88 bits; with another C. -/
def Tile.withAcc (y : Tile) (x : Int) (taint : Bool) : Tile := { y with acc := BitVec.ofInt 88 (satInt 88 x), accTaint := taint }
def Tile.withC (y : Tile) (c taint : Bool) : Tile := { y with c := c, cTaint := taint }

/-- The pass with its marks SAT and CHK_FAIL set where they are due. -/
def Pass.marked (sat chk : Bool) (p : Pass) : Pass := { p with sat := p.sat || sat, chkFail := p.chkFail || chk }

/-- `m` is `s` with the mark of saturation where it is due, but for the books of the memory that was read. -/
def SlotFrame (s m : State) (r : Run) (sat : Bool) : Prop :=
  Keeps (memoryTouches r.easel) s m ∧
  (m.ez r.easel).pass = (s.ez r.easel).pass.map (Pass.marked sat false)

/-- `m` is `s` with the result `v` in the destination of the slot word, where the easel has that word; every other operand
reads as before. -/
def SlotResult (s m : State) (r : Run) (v : TWord) (sat : Bool) : Prop :=
  SlotFrame s m r sat ∧
  ((s.slotAt r).dst < dutyBase ∨ s.ownsWord r.easel (s.slotAt r).dst = true → (m.readOp r.easel (s.slotAt r).dst).1 = v) ∧
  ∀ a, a ≠ (s.slotAt r).dst → (m.readOp r.easel a).1 = (s.readOp r.easel a).1

/-- A result that saturates to 40 bits (R87). -/
def SlotSaturates (s m : State) (r : Run) (x : Int) (taint : Bool) : Prop :=
  SlotResult s m r ⟨sat40 x, taint⟩ (s.satA r || saturates 40 x)

/-- `m` is `s` with another tile register file for tile `x`; every operand reads as before. -/
def SlotTile (s m : State) (x : Fin 16) (r : Run) (y : Tile) (sat : Bool) : Prop :=
  (∀ a, (m.readOp r.easel a).1 = (s.readOp r.easel a).1) ∧ m.tiles[x] = y ∧
  ∃ k, SlotFrame s k r sat ∧ m = k.modTile x fun _ => y

end Sys2Proof.Machine
end

