-- ==== Sys2Proof/Certificates/Slice0/Obligations.lean ====
section
/-! DEFINITION. The statements about the model, each a proposition, with the rules of the specification it rests on. -/

open Sys2Proof Sys2Proof.Machine

/-- For every state whose queue begins with a command c, one step of the machine is exec of c on the same state with the rest of
the queue. -/
def Obligations.StepRunsTheFrontCommand : Prop :=
  ∀ (s : State) (c : Instr) (rest : List Instr), s.pending = c :: rest → step s = exec c { s with pending := rest }

/-- The model's own choice (log entry 1), as TIME48 advances by one fine tick of 80 ps: with an empty queue a step completes.
Outside device reset TIME48, the age and the fine count go on by one, the fine count modulo 125; in device reset the
timebase stands and only the age goes on. -/
def Obligations.IdleStepPassesOneFineTick : Prop :=
  ∀ (s : State), s.pending = [] →
    (s.sup.inReset = true → step s = .next { s with age := s.age + 1 }) ∧
    (s.sup.inReset = false → ∃ t, step s = .next t ∧ t.pending = [] ∧ t.time = s.time + 1 ∧ t.age = s.age + 1 ∧
      t.fine = (s.fine + 1) % 125)

/-- For every command and every state, exec answers a next state (no command of this block faults or is refused), and the queue
of that state is the queue of the state before. -/
def Obligations.EveryCommandCompletesAndLeavesTheQueue : Prop :=
  ∀ (c : Instr) (s : State), ∃ t, exec c s = .next t ∧ t.pending = s.pending

/-- For every state in which no leg has both gate pins high, and every step to a next state, no leg has both gate pins high in
that state: whatever command runs, host errors and unpredictable easels included. -/
def Obligations.PinsStayExclusive : Prop :=
  ∀ (s t : State), s.PinsExclusive → step s = .next t → t.PinsExclusive

/-- For every state in which both gate pins of each choked leg are low, and every step to a next state, both gate pins of
each choked leg are low in that state: whatever command runs, host errors, unpredictable easels and wrong protection
settings included. -/
def Obligations.ChokedLegsStayLow : Prop :=
  ∀ (s t : State), s.ChokedLow → step s = .next t → t.ChokedLow

/-- For every state whose register file lists addresses in strictly rising order, and every step to a next state, the register
file of that state does so too; with it equal register contents are equal data. -/
def Obligations.RegistersStayInOrder : Prop :=
  ∀ (s t : State), s.RegsInOrder → step s = .next t → t.RegsInOrder

/-- For every state in which the memory array of each easel that is not unpredictable lists its words in rising order and lists
no vacant word, and every step to a next state, the same holds of that state. -/
def Obligations.MemoryStaysCanonical : Prop :=
  ∀ (s t : State), s.MemCanonical → step s = .next t → t.MemCanonical

/-- After reset the queue is empty, TIME48 is 0, no leg drives both pins high, choked legs are low, the register file and the
memories are in canonical form, nothing is unpredictable, every memory word of every easel reads as a vacant word, the
timebase is ON_BOSC and TEMPO reads 0xFFFF. -/
def Obligations.ResetStateIsWellFormed : Prop :=
  State.reset.pending = [] ∧ State.reset.time = 0 ∧ State.reset.PinsExclusive ∧ State.reset.ChokedLow ∧
  State.reset.RegsInOrder ∧ State.reset.MemCanonical ∧ State.reset.Predictable ∧
  State.reset.get R.TB_STATUS_STATE = 2 ∧ State.reset.get R.TEMPO_TEMPO = 0xFFFF ∧
  ∀ (e : Fin 8) (a : Nat), (State.reset.readMem e a).1 = ⟨vacantWord, true⟩

/-- For every 40-bit value, either vacancy bit and every one of the 48 bit positions, the word that differs from its stored form
in that one bit decodes to the value and the vacancy bit, marked corrected; the stored form itself decodes as clean; and
the cleared word is 0xAF00_0000_0000. -/
def Obligations.SingleBitErrorsAreCorrected : Prop :=
  (∀ (d : Word) (vac : Bool), decodeWord (encodeWord d vac) = .clean d vac) ∧
  (∀ (d : Word) (vac : Bool) (i : Nat), i < 48 → decodeWord (encodeWord d vac ^^^ BitVec.twoPow 48 i) = .fixed d vac) ∧
  encodeWord 0 true = 0xAF0000000000

/-- For every 40-bit value, either vacancy bit and every two different bit positions of the 48, the word that differs from its
stored form in those two bits decodes as lost. -/
def Obligations.DoubleBitErrorsAreFound : Prop :=
  ∀ (d : Word) (vac : Bool) (i j : Nat), i < j → j < 48 →
    decodeWord (encodeWord d vac ^^^ BitVec.twoPow 48 i ^^^ BitVec.twoPow 48 j) = .lost

/-- For every state, every easel, every operand address of its memories and every word with its taint: after a write a read of
that address gives the word and its taint and leaves the state as it is; every other address of that easel and every
address of another easel reads as before; the array stays in canonical form. It holds while the transparent test has a
region in progress or has parked regions. -/
def Obligations.MemoryReadsWhatWasWritten : Prop :=
  ∀ (s : State) (e : Fin 8) (a : Nat) (w : TWord),
    ((s.writeMem e a w).readMem e a).1 = w ∧ ((s.writeMem e a w).readMem e a).2 = s.writeMem e a w ∧
    (∀ b : Nat, b ≠ a → ((s.writeMem e a w).readMem e b).1 = (s.readMem e b).1) ∧
    (∀ (f : Fin 8) (b : Nat), f ≠ e → ((s.writeMem e a w).readMem f b).1 = (s.readMem f b).1) ∧
    ((s.ez e).MemCanonical → ((s.writeMem e a w).ez e).MemCanonical)

/-- Outside device reset the window in progress ends 256 coarse ticks after its start, and the next one starts there. Where
every ring completed a trip, the largest result is published in TEMPO, TEMPO.RING names the lowest ring that gave it (the
lowest is the model's choice, log entry 88), TEMPO_FAULT clears and TEMPO_PEAK rises to it unless the result is 0xFFFF;
where a ring completed none, TEMPO is 0xFFFF, RING names the first such ring, TEMPO_FAULT is set, TEMPO_FAULT_CNT counts
with its stop, the router gets its pulse, TEMPO_PEAK keeps its value, and TEMPO_FAULT is posted to F0 where its staging has
room. -/
def Obligations.TempoIsPublishedEachWindow : Prop :=
  ∀ (s u : State) (trips : Vector Nat 16), s.sup.inReset = false → u = s.reachAge (s.tb.windowFrom + 32000) →
    ((∀ i : Fin 16, trips[i] ≠ 0) → ∃ t, exec (.tempoWindowEnd trips) s = .next t ∧ t.tb.windowFrom = s.tb.windowFrom + 32000 ∧
      t.time = u.time ∧ (∀ i : Fin 16, (ringTempo trips[i]).toNat ≤ t.get R.TEMPO_TEMPO) ∧
      (∃ i : Fin 16, (ringTempo trips[i]).toNat = t.get R.TEMPO_TEMPO ∧ t.get R.TEMPO_RING = i.val ∧
        ∀ j : Fin 16, j < i → (ringTempo trips[j]).toNat < t.get R.TEMPO_TEMPO) ∧
      t.flag R.TB_STATUS_TEMPO_FAULT = false ∧
      t.get R.TEMPO_PEAK_PEAK = (if t.get R.TEMPO_TEMPO = 0xFFFF then u.get R.TEMPO_PEAK_PEAK
        else max (u.get R.TEMPO_PEAK_PEAK) (t.get R.TEMPO_TEMPO))) ∧
    (∀ (r : Fin 16), trips[r] = 0 → (∀ i : Fin 16, i < r → trips[i] ≠ 0) → ∃ t, exec (.tempoWindowEnd trips) s = .next t ∧
      t.tb.windowFrom = s.tb.windowFrom + 32000 ∧ t.time = u.time ∧ t.get R.TEMPO_TEMPO = 0xFFFF ∧ t.get R.TEMPO_RING = r.val ∧
      t.flag R.TB_STATUS_TEMPO_FAULT = true ∧
      t.get R.TB_COUNTS_TEMPO_FAULT_CNT = min 255 (u.get R.TB_COUNTS_TEMPO_FAULT_CNT + 1) ∧
      t.router.pulses.getLsbD 0xE0 = true ∧ t.get R.TEMPO_PEAK_PEAK = u.get R.TEMPO_PEAK_PEAK ∧
      (u.f0.entries.length < 31 → Staged t.f0 0x20 u.time))

/-- Outside device reset a calibration takes effect 1,024 coarse ticks after the one before. One of 125 to 320 taps sets
FINE_CAL.TAPS and TAPS_LAST to its count, sets FINE_OK, clears FINE_STALE and swaps the delay lines, the line then in use
holding the new table. Any other keeps the table, the line and FINE_OK, records TAPS_LAST, sets FINE_STALE, counts
FINE_CAL_FAIL_CNT with its stop, pulses its router source and posts FINE_STALE to F0 where its staging has room. An invalid
calibration touches nothing else. -/
def Obligations.CalibrationTakesOrKeepsTheTable : Prop :=
  ∀ (s u : State) (n : BitVec 9), s.sup.inReset = false → u = s.reachAge (s.tb.calFrom + 128000) →
    (125 ≤ n.toNat → n.toNat ≤ 320 → ∃ t, exec (.fineCalibration n) s = .next t ∧ t.time = u.time ∧
      t.tb.calFrom = s.tb.calFrom + 128000 ∧ t.get R.FINE_CAL_TAPS = n.toNat ∧ t.get R.FINE_CAL_TAPS_LAST = n.toNat ∧
      t.flag R.TB_STATUS_FINE_OK = true ∧ t.flag R.TB_STATUS_FINE_STALE = false ∧ t.tb.line = !s.tb.line ∧
      (if t.tb.line then t.tb.tapsB else t.tb.tapsA) = n) ∧
    ((n.toNat < 125 ∨ 320 < n.toNat) → ∃ t, exec (.fineCalibration n) s = .next t ∧
      t.tb = { u.tb with calFrom := s.tb.calFrom + 128000 } ∧ t.get R.FINE_CAL_TAPS = u.get R.FINE_CAL_TAPS ∧
      t.get R.FINE_CAL_TAPS_LAST = n.toNat ∧ t.flag R.TB_STATUS_FINE_OK = u.flag R.TB_STATUS_FINE_OK ∧
      t.flag R.TB_STATUS_FINE_STALE = true ∧
      t.get R.TB_COUNTS_FINE_CAL_FAIL_CNT = min 255 (u.get R.TB_COUNTS_FINE_CAL_FAIL_CNT + 1) ∧
      t.router.pulses.getLsbD 0xE1 = true ∧ (u.f0.entries.length < 31 → Staged t.f0 0x21 u.time) ∧
      Keeps (touches [R.FINE_CAL_TAPS.addr, R.TB_STATUS_STATE.addr, R.TB_COUNTS_FINE_CAL_FAIL_CNT.addr] [.timebase, .router]) u t)

/-- Outside device reset, in ON_TREF: BOSC is trimmed, the first time with the command (the model's choice), then 1 ms after
the trim before, if ON_TREF still holds. 200 ns without an edge, or a count more than 2 % off 4,096, is a loss: it starts
BLEND_TO_BOSC now from the live word to the word of BOSC, sets LOSS_STICKY, counts TREF_LOSS_CNT with its stop, pulses its
router source and posts TREF_LOST; any other measurement does nothing. A blend takes 1,000 equal steps at 100 ns each (a
step is rounded to a whole word, the model's choice) and ends 100 µs after its start at its target in ON_BOSC or ON_TREF. In
ON_BOSC with TREF_EN = 1 and FORCE_BOSC = 0 a TREF edge starts QUALIFY with count 0. There a cycle within 2 % of 40 ns
counts, to at most 1,024, and any other restarts the count; at 1,024 with a span within 1.5 % of 4,096 BLEND_TO_TREF starts
towards the measured word, and with another span the count restarts (the model's choice, log entry 87). Beside the time that
passes, each touches the timebase and its status register alone, a loss also its counter and the router. -/
def Obligations.ReferenceChangesFollowTheTable : Prop :=
  ∀ (s : State), s.sup.inReset = false →
    (∀ (word : Int), s.get R.TB_STATUS_STATE = 0 → s.tb.trimAt = none → ∃ t, exec (.boscTrim word) s = .next t ∧
      t.tb = { s.tb with bosc := word, trimAt := some s.age } ∧ Keeps (touches [] [.timebase]) s t) ∧
    (∀ (word : Int) (a : Nat) (u : State), s.get R.TB_STATUS_STATE = 0 → s.tb.trimAt = some a → u = s.reachAge (a + 12500000) →
      ∃ t, exec (.boscTrim word) s = .next t ∧ (u.get R.TB_STATUS_STATE ≠ 0 → t = u) ∧ (u.get R.TB_STATUS_STATE = 0 →
        t.tb = { u.tb with bosc := word, trimAt := some u.age } ∧ Keeps (touches [] [.timebase]) u t)) ∧
    (∀ (x : TrefView), s.get R.TB_STATUS_STATE = 0 → ((∃ n, x = .gap n ∧ 2500 ≤ n) ∨
      (∃ n, x = .window n ∧ 4096 * 2 < ((n : Int) - 4096).natAbs * 100)) → ∃ t, exec (.trefLoss x) s = .next t ∧
      t.get R.TB_STATUS_STATE = 1 ∧ t.tb.blendFrom = s.tb.word ∧ t.tb.blendTo = s.tb.bosc ∧ t.tb.blendStep = 0 ∧
      t.tb.blendAt = s.age ∧ t.flag R.TB_STATUS_LOSS_STICKY = true ∧
      t.get R.TB_COUNTS_TREF_LOSS_CNT = min 255 (s.get R.TB_COUNTS_TREF_LOSS_CNT + 1) ∧ t.router.pulses.getLsbD 0xE2 = true ∧
      (s.f0.entries.length < 31 → Staged t.f0 0x22 s.time) ∧
      Keeps (touches [R.TB_STATUS_STATE.addr, R.TB_COUNTS_TREF_LOSS_CNT.addr] [.timebase, .router]) s t) ∧
    (∀ (n : Nat), n < 2500 → exec (.trefLoss (.gap n)) s = .next s) ∧
    (∀ (n : Nat), ((n : Int) - 4096).natAbs * 100 ≤ 4096 * 2 → exec (.trefLoss (.window n)) s = .next s) ∧
    (∀ (u : State), (s.get R.TB_STATUS_STATE = 1 ∨ s.get R.TB_STATUS_STATE = 4) → s.tb.blendStep < 1000 →
      u = s.reachAge (s.tb.blendAt + 1250 * (s.tb.blendStep + 1)) → ∃ t, exec (.refBlendStep) s = .next t ∧
      t.tb.blendStep = s.tb.blendStep + 1 ∧ t.tb.word = blendWord s.tb.blendFrom s.tb.blendTo (s.tb.blendStep + 1) ∧
      Keeps (touches [] [.timebase]) u t) ∧
    (∀ (u : State), (s.get R.TB_STATUS_STATE = 1 ∨ s.get R.TB_STATUS_STATE = 4) → u = s.reachAge (s.tb.blendAt + 1250000) →
      ∃ t, exec (.refBlendComplete) s = .next t ∧ t.get R.TB_STATUS_STATE = (if s.get R.TB_STATUS_STATE = 1 then 2 else 0) ∧
      t.tb.word = s.tb.blendTo ∧ Keeps (touches [R.TB_STATUS_STATE.addr] [.timebase]) u t) ∧
    (s.get R.TB_STATUS_STATE = 2 → s.flag R.TB_CTRL_TREF_EN = true → s.flag R.TB_CTRL_FORCE_BOSC = false → ∃ t,
      exec (.qualifyStart) s = .next t ∧ t.get R.TB_STATUS_STATE = 3 ∧ t.get R.TB_STATUS_QUAL_COUNT = 0 ∧
      t.flag R.TB_STATUS_TREF_PRESENT = true ∧ Keeps (touches [R.TB_STATUS_STATE.addr] [.timebase]) s t) ∧
    (∀ (periodPs : Nat), s.get R.TB_STATUS_STATE = 3 → ∃ t, exec (.qualifyCycle periodPs) s = .next t ∧
      t.get R.TB_STATUS_QUAL_COUNT = (if 39200 ≤ periodPs ∧ periodPs ≤ 40800 then min 1024 (s.get R.TB_STATUS_QUAL_COUNT + 1)
        else 0) ∧ t.get R.TB_STATUS_STATE = 3 ∧ Keeps (touches [R.TB_STATUS_STATE.addr] [.timebase]) s t) ∧
    (∀ (span : Nat) (word : Int), s.get R.TB_STATUS_STATE = 3 → s.get R.TB_STATUS_QUAL_COUNT = 1024 →
      s.flag R.TB_CTRL_TREF_EN = true → s.flag R.TB_CTRL_FORCE_BOSC = false → 4035 ≤ span → span ≤ 4157 → ∃ t,
      exec (.trefQualified span word) s = .next t ∧ t.get R.TB_STATUS_STATE = 4 ∧ t.tb.blendFrom = s.tb.word ∧
      t.tb.blendTo = word ∧ t.tb.blendStep = 0 ∧ t.tb.blendAt = s.age ∧
      Keeps (touches [R.TB_STATUS_STATE.addr] [.timebase]) s t) ∧
    (∀ (span : Nat) (word : Int), s.get R.TB_STATUS_STATE = 3 → s.get R.TB_STATUS_QUAL_COUNT = 1024 →
      (span < 4035 ∨ 4157 < span) → ∃ t, exec (.trefQualified span word) s = .next t ∧ t.get R.TB_STATUS_STATE = 3 ∧
      t.get R.TB_STATUS_QUAL_COUNT = 0 ∧ Keeps (touches [R.TB_STATUS_STATE.addr] [.timebase]) s t)

/-- For an agent that may write the timebase group outside device reset: every mode is stored, and TREF_EN and FORCE_BOSC
are stored, and nothing else changes. The levels act at the next coarse tick, here one that the block reaches with an empty
queue: where TREF_EN is 0 or FORCE_BOSC is 1, ON_TREF goes to BLEND_TO_BOSC from the live word towards the word of BOSC and
QUALIFY to ON_BOSC; in every other state, blends included, and where TREF is allowed, the state stays. -/
def Obligations.ReferenceControlsActByState : Prop :=
  ∀ (s : State),
    (∀ (a : Agent), s.mayWrite a 0 = true →
      (∀ (mode : BitVec 2), ∃ t, exec (.trefModeWrite a mode) s = .next t ∧ t.get R.TB_CTRL_TREF_MODE = mode.toNat ∧
        t.flag R.TB_CTRL_TREF_EN = s.flag R.TB_CTRL_TREF_EN ∧ t.flag R.TB_CTRL_FORCE_BOSC = s.flag R.TB_CTRL_FORCE_BOSC ∧
        Keeps (touches [R.TB_CTRL_TREF_MODE.addr]) s t) ∧
      (∀ (on : Bool), ∃ t, exec (.trefEnWrite a on) s = .next t ∧ t.flag R.TB_CTRL_TREF_EN = on ∧
        t.flag R.TB_CTRL_FORCE_BOSC = s.flag R.TB_CTRL_FORCE_BOSC ∧ Keeps (touches [R.TB_CTRL_TREF_EN.addr]) s t) ∧
      (∀ (on : Bool), ∃ t, exec (.forceBoscWrite a on) s = .next t ∧ t.flag R.TB_CTRL_FORCE_BOSC = on ∧
        t.flag R.TB_CTRL_TREF_EN = s.flag R.TB_CTRL_TREF_EN ∧ Keeps (touches [R.TB_CTRL_TREF_EN.addr]) s t)) ∧
    (s.sup.inReset = false → s.pending = [] → s.fine = 124 →
      (s.flag R.TB_CTRL_TREF_EN = true → s.flag R.TB_CTRL_FORCE_BOSC = false → ∃ t, step s = .next t ∧
        t.get R.TB_STATUS_STATE = s.get R.TB_STATUS_STATE ∧ t.tb = s.tb) ∧
      ((s.flag R.TB_CTRL_TREF_EN = false ∨ s.flag R.TB_CTRL_FORCE_BOSC = true) → ∃ t, step s = .next t ∧
        t.get R.TB_STATUS_STATE = (if s.get R.TB_STATUS_STATE = 0 then 1 else if s.get R.TB_STATUS_STATE = 3 then 2
          else s.get R.TB_STATUS_STATE) ∧
        (s.get R.TB_STATUS_STATE = 0 → t.tb.blendFrom = s.tb.word ∧ t.tb.blendTo = s.tb.bosc ∧ t.tb.blendStep = 0 ∧
          t.tb.blendAt = t.age) ∧ (s.get R.TB_STATUS_STATE ≠ 0 → t.tb = s.tb)))

/-- R52: the first downbeat of an easel that fires after a reset takes number 0 and each later one the next number; device
reset and the end of an easel reset bring DB_COUNT to 0 and the next downbeat of that easel is its first; setting or
clearing RUN keeps the count. (Between a write of RUN and the next downbeat nothing else is claimed. A device reset for a
supply needs one below its reset level outside device reset, one of the device watchdog its fault.) -/
def Obligations.DownbeatsAreNumberedFromReset : Prop :=
  ∀ (s : State),
    (∀ (e : Fin 8) (tm : Time), s.dbPoint e = some tm → (s.reach tm).dbMoves e = false → ∃ t, exec (.downbeat e) s = .next t
      ∧ (t.ez e).dbFired = true ∧ (((s.reach tm).ez e).dbFired = false → (t.ez e).dbCount = 0) ∧ (((s.reach tm).ez e).dbFired
      = true → (t.ez e).dbCount = ((s.reach tm).ez e).dbCount + 1)) ∧
    (∀ (c : DeviceResetCause), (c = .supply → s.sup.inReset = false ∧ ∃ k : Fin 4, s.sup.supplies[k] = .belowReset) →
      (c = .dwd → s.sup.dwdReset.isSome = true) → ∃ t, exec (.deviceReset c) s = .next t ∧ (∀ e : Fin 8, (t.ez e).dbCount = 0 ∧
      (t.ez e).dbFired = false)) ∧
    (∀ (e : Fin 8), (s.ez e).reset.isSome = true → ∃ t, exec
      (.easelResetComplete e) s = .next t ∧ (t.ez e).dbCount = 0 ∧ (t.ez e).dbFired = false) ∧
    (∀ (e : Fin 8) (a : Agent), ∃ t, exec (.runSet e a) s = .next t ∧ (t.ez e).dbCount = (s.ez e).dbCount ∧ (t.ez e).dbFired
      = (s.ez e).dbFired) ∧
    (∀ (e : Fin 8) (a : Agent), ∃ t, exec (.runClear e a) s = .next t ∧ (t.ez e).dbCount = (s.ez e).dbCount ∧ (t.ez
      e).dbFired = (s.ez e).dbFired)

/-- At a downbeat that is not moved on for FINE_OK: the next downbeat lies one DB_PERIOD later (unless RUN was cleared, when it
was the last). Unless supply is held, the easel is in HRD or has no image, or this was the last downbeat, a new pass is
open, opened at the downbeat with its number; else none is. A pass that had slipped, with no fault, no tainted written
word, no plausibility hold and no supply hold, sets OVERRUN, counts SLIP_CNT modulo its width, and posts SLIP where staging
has room. -/
def Obligations.DownbeatClosesAndReleasesPasses : Prop :=
  ∀ (s : State) (e : Fin 8) (tm : Time), s.dbPoint e = some tm → (s.reach tm).dbMoves e = false →
    (((s.reach tm).ez e).genLast = none → ∃ t, exec (.downbeat e) s = .next t ∧ (t.ez e).lastDb = some (s.reach tm).age ∧
      (t.ez e).gen = some (tm + BitVec.ofNat 48 ((s.reach tm).get (R.DB_PERIOD_PERIOD e))) ∧ ((s.reach tm).heldAt e = false →
      t.run e = true → t.inHrd e = false → t.hasImage e = true → (t.ez e).pass.any (fun q => q.openDb == (t.ez e).dbCount &&
      q.openTime == (s.reach tm).time) = true) ∧ ((s.reach tm).heldAt e = true ∨ t.run e = false ∨ t.inHrd e = true ∨ t.hasImage e = false →
      (t.ez e).pass = none)) ∧
    (((s.reach tm).ez e).genLast.isSome = true → ∃ t, exec (.downbeat e) s = .next t ∧ (t.ez e).lastDb = none ∧ (t.ez e).pass
      = none ∧ (t.ez e).genLast = none ∧ (t.ez e).gen = ((s.reach tm).ez e).gen) ∧
    (∀ (p : Pass), ((s.reach tm).ez e).pass = some p → p.slipped = true → p.fault = none → (((s.reach tm).ez e).shadow.all
      fun x => !x.2.taint) = true → (s.reach tm).flag (R.ENG_STATUS_PHOLD e) = false → (s.reach tm).heldAt e = false → (∀ d :
      Fin 8, (s.ez d).unpred = false) → s.unpredRegs = [] → ∃ t, exec (.downbeat e) s = .next t ∧ t.flag
      (R.SCHED_STATUS_OVERRUN e) = true ∧ t.get (R.SLIP_CNT_COUNT e) = (s.get (R.SLIP_CNT_COUNT e) + 1) % 2 ^
      (R.SLIP_CNT_COUNT e).width ∧ (((s.reach tm).ez e).evt.entries.length < 28 → Staged (t.ez e).evt 0x15 (s.reach
      tm).time))

/-- A pass that was final 40 ns before its end, with no fault and no tainted written word, outside plausibility hold, supply hold
and HRD and with no limp requested, becomes real at the downbeat: a written DUTY word is the pending value of its leg, where the easel then owns it; a
written state word reads as the committed word, where no transaction of the ledger commits after it; SLIP_RUN is 0,
SLACK_LAST is the time from final to the fence and SLACK_MIN does not exceed it. (Written words are listed once each in the
states that runs reach; the statement asks it of the words it speaks of.) -/
def Obligations.FinalPassesBecomeReal : Prop :=
  ∀ (s : State) (e : Fin 8) (tm : Time) (p : Pass), s.dbPoint e = some tm → (s.reach tm).dbMoves e = false → ((s.reach tm).ez
    e).pass = some p → (s.reach tm).finalInTime e p = true → p.fault = none → (((s.reach tm).ez e).shadow.all fun x =>
    !x.2.taint) = true → (s.reach tm).flag (R.ENG_STATUS_PHOLD e) = false → (s.reach tm).heldAt e = false → (s.reach
    tm).inHrd e = false → ((s.reach tm).ez e).limpAt = none → ((s.reach tm).ez e).hrdAt = none →
    (∃ t, exec (.downbeat e) s = .next t ∧ t.get (R.SCHED_STATUS_SLIP_RUN e) = 0 ∧ t.get (R.SLACK_LAST_SLACK e) = (s.reach
      tm).slack e p % 2 ^ (R.SLACK_LAST_SLACK e).width ∧ t.get (R.SLACK_MIN_SLACK e) ≤ (s.reach tm).slack e p) ∧
    (∀ (l : Fin 64) (w : Word), (s.reach tm).ownerLeg l = some e → ((((s.reach tm).ez e).shadow.filter fun x => x.1 == dutyBase + l.val).map fun x => x.2.val) =
      [w] → ∃ t, exec (.downbeat e) s = .next t ∧ (t.leg l).pending = w) ∧
    (∀ (a : Nat) (w : Word), shadowBase ≤ a → a < scratchBase → ((s.reach tm).ez e).ledger = [] → ((((s.reach tm).ez
      e).shadow.filter fun x => x.1 == a).map fun x => x.2.val) = [w] → ∃ t, exec (.downbeat e) s = .next t ∧ (t.readMem e (a
      - 0x1000)).1 = ⟨w, false⟩)

/-- For every present instant, every DB_START and every period of at least one fine tick: the model places the first downbeat at
a point of the unwrapped line that is DB_START, taken nearest to the present, plus a whole number of periods, at least
12,500 fine ticks ahead, and every smaller number of periods gives a point less than that ahead. -/
def Obligations.FirstDownbeatIsTheEarliestCandidate : Prop :=
  ∀ (now start : Time) (p : Nat), 0 < p → ∃ j : Nat,
    firstDownbeat now start p = now + BitVec.ofInt 48 ((start - now).toInt + j * p) ∧
    12500 ≤ (start - now).toInt + j * p ∧ ∀ i : Nat, i < j → (start - now).toInt + i * p < 12500

/-- For an agent that reaches the easel's window: a write that sets RUN, not ignored, on an admitted easel with an image sets RUN
and ADM_OK, clears PRELOAD and places the first downbeat at the earliest candidate; on an easel that is not admitted it
leaves RUN 0, clears ADM_OK and posts ADM_FAIL where staging has room. A write that clears RUN clears it; the downbeat
scheduled less than 40 ns ahead is then the one to come, and a later one, with no other still to fire, does not come. -/
def Obligations.RunWritesStartAndStopTheGenerator : Prop :=
  ∀ (s : State) (e : Fin 8) (a : Agent), s.reachesWindow a e = true →
    (s.runBlocked e = false → (s.admission e (s.halfOf e)).1 = true → s.hasImage e = true → ∃ t, exec (.runSet e a) s = .next
      t ∧ t.run e = true ∧ t.flag (R.SCHED_STATUS_ADM_OK e) = true ∧ t.flag (R.BRING_CTRL_PRELOAD e) = false ∧ (t.ez e).gen =
      some (firstDownbeat s.time (s.dbStart e) (s.get (R.DB_PERIOD_PERIOD e))) ∧ Keeps (touches [(R.DB_CTRL_RUN e).addr,
      (R.SCHED_STATUS_ADM_OK e).addr, (R.BRING_CTRL_PRELOAD e).addr] [] [e]) s t) ∧
    (s.runBlocked e = false → ((s.admission e (s.halfOf e)).1 = false ∨ s.hasImage e = false) → ∃ t, exec (.runSet e a) s =
      .next t ∧ t.run e = false ∧ t.flag (R.SCHED_STATUS_ADM_OK e) = false ∧ ((s.ez e).evt.entries.length < 32 → Staged (t.ez
      e).evt 0x12 s.time) ∧ Keeps (touches [(R.SCHED_STATUS_ADM_OK e).addr]) s t) ∧
    (∀ (g : Time), s.run e = true → (s.ez e).gen = some g → atLeastAfter ns40 s.time g = false → ∃ t, exec (.runClear e a) s
      = .next t ∧ t.run e = false ∧ t.dbPoint e = some g) ∧
    (∀ (g : Time), s.run e = true → (s.ez e).gen = some g → atLeastAfter ns40 s.time g = true → (s.ez e).genLast = none → ∃
      t, exec (.runClear e a) s = .next t ∧ t.run e = false ∧ t.dbPoint e = none)

/-- R55: with RUN 0, a whole-register write sets DB_PERIOD (by F0, a value in its stated range and above the OFFSET of each
sequence that a downbeat of the easel triggers), by an agent that reaches the window DB_START_LO or DB_START_HI (16 bits), where no
agent later in the order has written it in the same coarse tick, and touches no other register or state (none of the three holds a
counter, which the statement asks of the books of the tick); with RUN 1 a write of any of the three by any agent changes nothing; a request for an
easel reset that is taken leaves RUN 0. -/
def Obligations.PeriodAndStartAreFrozenWhileRunning : Prop :=
  ∀ (s : State) (e : Fin 8) (a : Agent),
    (∀ (v : BitVec 32), s.reachesWindow a e = true → s.run e = false → s.overruled a (R.DB_PERIOD_PERIOD e).addr = 0 → (∀ c ∈ s.tick.counts, c.1 ≠ (R.DB_PERIOD_PERIOD e).addr) → (∀ (p : Fin 8) (q : Fin 4), s.pairOwner p = some e → s.get (R.ADC_SEQ_SRC p q) = 0 → s.get (R.ADC_TOFS_OFFSET p q) < v.toNat) → a = .f0 → 6250 ≤ v.toNat → v.toNat ≤ 12500000 → ∃ t, exec (.setupRegisterWrite a (BitVec.ofNat 24 ((R.DB_PERIOD_PERIOD
      e).addr)) 0xF v) s = .next t ∧ t.get (R.DB_PERIOD_PERIOD e) = v.toNat ∧ Keeps (touches [(R.DB_PERIOD_PERIOD e).addr]) s
      t) ∧
    (∀ (v : BitVec 32), s.run e = true → ∃ t, exec (.setupRegisterWrite a (BitVec.ofNat 24 ((R.DB_PERIOD_PERIOD e).addr)) 0xF
      v) s = .next t ∧ t = s) ∧
    (∀ (v : BitVec 32), s.reachesWindow a e = true → s.run e = false → s.overruled a (R.DB_START_LO_START_LO e).addr = 0 → (∀ c ∈ s.tick.counts, c.1 ≠ (R.DB_START_LO_START_LO e).addr) → ∃
      t, exec (.setupRegisterWrite a (BitVec.ofNat 24 ((R.DB_START_LO_START_LO e).addr)) 0xF v) s = .next t ∧ t.get
      (R.DB_START_LO_START_LO e) = v.toNat ∧ Keeps (touches [(R.DB_START_LO_START_LO e).addr]) s t) ∧
    (∀ (v : BitVec 32), s.run e = true → ∃ t, exec (.setupRegisterWrite a (BitVec.ofNat 24 ((R.DB_START_LO_START_LO e).addr))
      0xF v) s = .next t ∧ t = s) ∧
    (∀ (v : BitVec 32), s.reachesWindow a e = true → s.run e = false → s.overruled a (R.DB_START_HI_START_HI e).addr = 0 → (∀ c ∈ s.tick.counts, c.1 ≠ (R.DB_START_HI_START_HI e).addr) →
      v.toNat < 65536 → ∃ t, exec (.setupRegisterWrite a (BitVec.ofNat 24 ((R.DB_START_HI_START_HI e).addr)) 0xF v) s = .next
      t ∧ t.get (R.DB_START_HI_START_HI e) = v.toNat ∧ Keeps (touches [(R.DB_START_HI_START_HI e).addr]) s t) ∧
    (∀ (v : BitVec 32), s.run e = true → ∃ t, exec (.setupRegisterWrite a (BitVec.ofNat 24 ((R.DB_START_HI_START_HI e).addr))
      0xF v) s = .next t ∧ t = s) ∧
    (∀ (c : ResetCause), s.resetAllowed c = true → (s.ez e).reset = none → ∃ t, exec (.easelReset e c) s = .next t ∧ t.run e
      = false)

/-- The low time register at `lo` captures for agent `a`, whose copy lies at `key` and is read at `hi`. -/
def capturesTime (s : State) (a : Agent) (lo hi : Nat) : Prop :=
  (∃ t, exec (.captureRead a (BitVec.ofNat 24 lo) 0xF) s = .next t ∧
    (s.readRegister a lo 0xF).1 = s.time.setWidth 32 ∧
    (∀ u : State, u.caps = t.caps →
      (u.readRegister a hi 0xF).1 = (s.time >>> 32).setWidth 32 ∧ (u.readRegister a hi 0xF).2 = u) ∧
    (∀ k : Nat, k ≠ capKey a hi → Cells.get 0 k t.caps = Cells.get 0 k s.caps) ∧ Keeps (touches [] [.caps]) s t) ∧
  ∀ be : BitVec 4, be ≠ 0xF →
    exec (.captureRead a (BitVec.ofNat 24 lo) be) s = .next s ∧ (s.readRegister a lo be).1 = 0

/-- R49, outside device reset: for an agent that reaches the F0 window, a read of TB_TIME_LO returns TIME48 bits 31 to 0, and
from then on, in every state with the same captures, a read of TB_TIME_HI returns bits 47 to 32 of that instant and leaves
the captures as they are; the mirrors of each easel window behave so with a capture of their own; no other capture changes. A read
that is not 32 bits wide captures nothing and returns 0. -/
def Obligations.CapturesHoldTheTime : Prop :=
  ∀ (s : State) (a : Agent), s.sup.inReset = false →
    (a.global = true → capturesTime s a R.TB_TIME_LO_TIME_LO.addr R.TB_TIME_HI_TIME_HI.addr) ∧
    (∀ e : Fin 8, a.window e = true → capturesTime s a (R.EASEL_TIME_LO_TIME_LO e).addr (R.EASEL_TIME_HI_TIME_HI e).addr)

/-- At the DEADLINE of an input of the entry that serves the pass, with the instant still to come reached first: if the input had
landed, nothing but time has passed; else no run of the pass acts any more (it has slipped, unless a fault was found
before). At the fence, 40 ns before the end of the pass: if the pass was final by then, nothing but time has passed; else
no run of it acts any more. -/
def Obligations.LatePassesSlip : Prop :=
  ∀ (s : State) (e : Fin 8) (p : Pass), (s.ez e).pass = some p →
    (∀ (i : Fin 64), i.val < (s.passHalf p).nInputs (s.passEntry e p) → ∃ t, exec (.inputDeadline e i) s = .next t ∧
      (p.landed.getLsbD i.val = true → t = s.reach (p.offset ((s.passHalf p).inDeadline (s.passEntry e p) i.val))) ∧
      (p.landed.getLsbD i.val = false → (t.ez e).pass.all (fun q => !q.live) = true)) ∧
    (∃ t, exec (.fenceReached e) s = .next t ∧ (∀ u, u = s.reach (p.offset ((s.passHalf p).entPeriod (s.passEntry e p) -
      500)) → if u.finalInTime e p then t = u else (t.ez e).pass.all (fun q => !q.live) = true))

/-- For an agent that reaches the window: FORCE_LIMP in the normal state notes the instant, an earlier request keeping its own;
FORCE_HRD outside HRD likewise; RELEASE in plausibility hold sets RELEASE_PEND and notes its instant. None of them changes
the limp state, a pass, or anything outside the easel. -/
def Obligations.RequestsWaitForTheirDownbeat : Prop :=
  ∀ (s : State) (e : Fin 8) (a : Agent), s.reachesWindow a e = true →
    (s.limp e = 0 → ∃ t, exec (.forceLimp e a) s = .next t ∧ (t.ez e) =
      { s.ez e with limpAt := some ((s.ez e).limpAt.getD s.age) } ∧ Keeps (touches [] [] [e]) s t) ∧
    (s.inHrd e = false → ∃ t, exec (.forceHrd e a) s = .next t ∧ (t.ez e) =
      { s.ez e with hrdAt := some ((s.ez e).hrdAt.getD s.age) } ∧ Keeps (touches [] [] [e]) s t) ∧
    (s.flag (R.ENG_STATUS_PHOLD e) = true → ∃ t, exec (.release e a) s = .next t ∧ t.flag (R.ENG_STATUS_RELEASE_PEND e) =
      true ∧ (t.ez e) = { s.ez e with releaseAt := some ((s.ez e).releaseAt.getD s.age) } ∧ Keeps (touches
      [(R.ENG_STATUS_RELEASE_PEND e).addr] [] [e]) s t)

/-- Without a pass, and where the CHECK trigger is not due, its command changes nothing. Where it is due (the pass neither
slipped, nor faulted, nor checked, nor final, all its inputs landed, its SKETCH runs finished), for an image with at most 64
inputs: the pass is checked; the input miss is set where it was, or where the prediction of an input is tainted or lies
further from the landed value than its tolerance; the class P counter of each input stays where its prediction is tainted,
is 0 where the difference is within its bound, else goes up (to at most 255, the model's choice, log entry 96); where N is
not 0 and is reached, the pass takes a fault of class P with the first such input, and the runs of the easel go on without
effect. In an entry without CHECK runs, a pass without a fault takes its verdict at once: good exactly where no miss and no
CHK_FAIL is set (a pass with a fault takes none, the model's choice, log entry 97). A good verdict with SPEC = 1 counts in
SPEC_CNT and makes the pass final; any other verdict makes REPAINT runs ready, and final at once where there is none; a
scrape with SPEC = 1 counts in SCRAPE_CNT and takes back every written word. Every memory word reads as before, and nothing
else changes but the books of the memory and, after a scrape, a slip of the pass. -/
def Obligations.TheCheckComparesEveryInput : Prop :=
  ∀ (s : State) (e : Fin 8),
    ((s.ez e).pass = none → exec (.checkTrigger e) s = .next s) ∧
    ∀ (p : Pass), (s.ez e).pass = some p →
    (s.checkReady e p = false → exec (.checkTrigger e) s = .next s) ∧
    (∀ (n : Nat), s.checkReady e p = true → n = (s.passHalf p).nInputs (s.passEntry e p) → n ≤ 64 →
      ∃ (t : State) (q : Pass) (good verdict spec : Bool), exec (.checkTrigger e) s = .next t ∧
      q.checked = true ∧
      (q.miss = true ↔ p.miss = true ∨ ∃ i < n, s.inputMisses e p i = true) ∧
      (∀ i : Fin 64, t.get (R.PCTL_MISS e i) = if i.val < n then s.missesAfter e i else s.get (R.PCTL_MISS e i)) ∧
      (q.fault = none ↔ ∀ i < n, s.faultsAt e i = false) ∧
      (∀ i < n, s.faultsAt e i = true → (∀ j < i, s.faultsAt e j = false) → q.fault = some (.p, i)) ∧
      (q.fault.isSome = true → ∀ k : Fin 16, t.tiles[k].run.all (fun r => r.easel != e || r.dead) = true) ∧
      good = (!q.miss && !p.chkFail) ∧ spec = (s.passHalf p).spec (s.passEntry e p) ∧
      verdict = (q.fault.isNone && ((s.passHalf p).segRuns e p.limp 2).isEmpty) ∧
      q.verdict = (if verdict then some good else p.verdict) ∧
      t.get (R.SPEC_CNT_COUNT e) = (s.get (R.SPEC_CNT_COUNT e) + (if verdict && spec && good then 1 else 0)) % 2 ^ 32 ∧
      t.get (R.SCRAPE_CNT_COUNT e) = (s.get (R.SCRAPE_CNT_COUNT e) + (if verdict && spec && !good then 1 else 0)) % 2 ^ 32 ∧
      q.repaint = (p.repaint || (verdict && !(spec && good))) ∧
      q.final = (if verdict && ((spec && good) || ((s.passHalf p).segRuns e p.limp 3).isEmpty) then some s.time else none) ∧
      (q.slipped = true → verdict = true ∧ spec = true ∧ good = false) ∧
      q = { p with checked := true, miss := q.miss, fault := q.fault, verdict := q.verdict, repaint := q.repaint,
                   final := q.final, slipped := q.slipped } ∧
      (∃ m b v x, t.ez e = { s.ez e with mem := m, btest := b, evt := v, pass := some q, shadow := x } ∧
        x = if verdict && spec && !good then [] else (s.ez e).shadow) ∧
      (∀ (f : Fin 8) (a : Nat), (t.readMem f a).1 = (s.readMem f a).1) ∧ Keeps (checkTouches e) s t)

/-- For an idle tile with a ready run: the run it starts is of a pass in progress, no other ready run of the tile has a lower
PRIO, or the same PRIO and a lower place in the body; the tile takes it with no slot word done, ACC, C and their taint
cleared, and the pass counts it among the runs started. -/
def Obligations.AnIdleTileStartsTheFirstReadyRun : Prop :=
  ∀ (s : State) (x : Fin 16) (e : Fin 8) (i : Nat), s.tiles[x].run = none → s.nextRun x = some (e, i) →
    (∃ t, exec (.tileRunStart x) s = .next t ∧ (t.tiles[x].run.any (fun r => r.easel == e && r.header == i && r.done == 0)) =
      true ∧ t.tiles[x].acc = 0 ∧ t.tiles[x].c = false ∧ t.tiles[x].accTaint = false ∧ t.tiles[x].cTaint = false ∧ (t.ez
      e).pass.any (fun q => q.started.contains i) = true ∧ (∀ c ∈ s.readyRuns x, s.goesFirst c (e, i) = false))

/-- For an agent that reaches the F0 window, with the store usable, no load in progress and no swap pending, LOAD sets BUSY,
disarms the shadow and clears IMG_SHADOW_ID. The words read fill the shadow half and leave the active one; a failed read
ends the load with RESULT 4 and is reported as an error of F0. The read has had its turn before: where no other request of
the link comes first, it is the next message, and nothing else changes. Verification ends the load with RESULT 2 for a bad
signature, 3 with the mask of the easels that fail admission, 1 otherwise; only RESULT 1 arms the shadow, with its IMAGE_ID;
each end clears BUSY and posts IMAGE_DONE where staging has room. -/
def Obligations.ImagesLoadIntoTheShadowHalf : Prop :=
  ∀ (s : State),
    (∀ (a : Agent), s.reaches a = true → s.loadAllowed = true → s.flag R.IMG_STATUS_BUSY = false → s.swapPending = false → ∃
      t, exec (.imageLoad a) s = .next t ∧ t.flag R.IMG_STATUS_BUSY = true ∧ t.img.stage = .dma ∧ t.img.armed = false ∧ t.get
      R.IMG_SHADOW_ID_ID = 0 ∧ t.img.half0 = s.img.half0 ∧ t.img.half1 = s.img.half1 ∧ Keeps (touches
      [R.IMG_STATUS_BUSY.addr, R.IMG_SHADOW_ID_ID.addr] [.image]) s t) ∧
    (∀ (ws : List (BitVec 64)), s.img.stage = .dma → ∃ t, exec (.imageDmaComplete (some ws)) s = .next t ∧ t.img.stage =
      .verify ∧ t.img.half (!s.activeHalf) = ws.take ((s.img.len + 7) / 8) ∧ t.img.half s.activeHalf = s.img.half
      s.activeHalf ∧ (s.linkFree 0 5 = true → t.outbox = s.outbox ++ [.read s.img.src s.img.len] ∧
      Keeps (touches [] [.image, .outbox, .functions]) s t)) ∧
    (s.img.stage = .dma → ∃ t, exec (.imageDmaComplete none) s = .next t ∧ t.img.stage = .idle ∧ t.img.armed = false ∧ t.flag
      R.IMG_STATUS_BUSY = false ∧ t.get R.IMG_STATUS_RESULT = 4 ∧ t.pcie[(0 : Fin 9)].aer &&& 0x5000 ≠ 0 ∧
      (s.f0.entries.length < 32 → Staged t.f0 0x10 s.time) ∧ (s.linkFree 0 5 = true →
      t.outbox = s.outbox ++ [.read s.img.src s.img.len] ∧ Keeps (touches [R.IMG_STATUS_BUSY.addr, R.IMG_SHADOW_ID_ID.addr]
      [.image, .outbox, .functions, .free]) s t)) ∧
    (s.img.stage = .verify → ∃ t, exec (.imageVerifyComplete) s = .next t ∧ t.img.stage = .idle ∧ t.flag R.IMG_STATUS_BUSY =
      false ∧ t.get R.IMG_STATUS_RESULT = (if signatureValid s.fuses (s.flag R.BOOT_STATUS_FUSE_ERR) (s.img.half
      (!s.activeHalf)) = false then 2 else if s.admFailMask (s.img.half (!s.activeHalf)) = 0 then 1 else 3) ∧ t.img.armed =
      (t.get R.IMG_STATUS_RESULT == 1) ∧ (t.get R.IMG_STATUS_RESULT = 3 → t.get R.IMG_STATUS_ADM_FAIL_MASK = s.admFailMask
      (s.img.half (!s.activeHalf))) ∧ (t.img.armed = true → t.get R.IMG_SHADOW_ID_ID = (s.img.half (!s.activeHalf)).id) ∧
      t.img.half0 = s.img.half0 ∧ t.img.half1 = s.img.half1 ∧ (s.f0.entries.length < 32 → Staged t.f0 0x10 s.time) ∧ Keeps
      (touches [R.IMG_STATUS_BUSY.addr, R.IMG_SHADOW_ID_ID.addr] [.image]) s t)

/-- For an agent that reaches the F0 window, with an armed shadow, no swap pending, an image that the rule of R84 allows and
a SWAP_TIME that lies ahead, SWAP sets SWAP_PENDING and nothing else. When SWAP_TIME comes with a swap pending, each easel
of the mask of the new image that is stopped or in HRD has changed or the swap is done, and no other easel has changed by
it; once every easel of the mask has changed, the halves exchange roles: SWAP_PENDING clears, ACTIVE_VALID is set,
IMG_ACTIVE_ID names the new image and IMG_SHADOW_ID is 0. -/
def Obligations.SwapsWaitForTheirTime : Prop :=
  ∀ (s : State),
    (∀ (a : Agent), s.reaches a = true → s.img.armed = true → s.swapPending = false → s.swapError = false → timeLe s.swapTime
      s.time = false → ∃ t, exec (.swap a) s = .next t ∧ t.flag R.IMG_STATUS_SWAP_PENDING = true ∧ t.img =
      { s.img with reached := false, changed := 0 } ∧ Keeps (touches [R.IMG_STATUS_SWAP_PENDING.addr] [.image]) s t) ∧
    (∀ (u : State) (new : Half), s.swapPending = true → s.img.reached = false → u = s.reach s.swapTime → u.swapPending = true →
      new = u.img.half (!u.activeHalf) → ∃ t, exec (.swapTimeReached) s = .next t ∧
      (t.swapPending = true → t.img.reached = true ∧ ∀ d : Fin 8, t.img.changed.getLsbD d.val =
        (u.img.changed.getLsbD d.val || (new.hasEasel d && (!u.run d || u.inHrd d)))) ∧
      (t.swapPending = false → (∀ d : Fin 8, new.hasEasel d = true →
          u.img.changed.getLsbD d.val = true ∨ u.run d = false ∨ u.inHrd d = true) ∧
        t.activeHalf = !u.activeHalf ∧ t.flag R.IMG_STATUS_ACTIVE_VALID = true ∧
        t.get R.IMG_ACTIVE_ID_ID = new.id ∧ t.get R.IMG_SHADOW_ID_ID = 0))

/-- For a slot word that the tables allow in a run with effect: the destination, where the easel has that word, takes the result
of the opcode on operands A (with its modifier) and B, saturated to 40 bits: A; |A|; -A; A times 2^B; A divided by 2^B to
the nearest, ties to even; A + B; A - B; the smaller; the larger; A times B over 2^32 to the nearest. It is tainted where
an operand is, and SAT is marked where the result or the modifier saturates. The run of the tile then goes on
(SlotWordsAdvanceTheRun). Every other operand of the easel reads as before, and nothing else changes but the easel's memory
books. -/
def Obligations.ArithmeticSlotsWriteTheirSaturatedResult : Prop :=
  ∀ (s : State) (x : Fin 16) (r : Run),
    (s.executes x r opMov → ∃ m, exec (.mov x) s = .next (m.slotDone x r) ∧ SlotSaturates s m r ((s.opA r).val.toInt) ((s.opA
      r).taint)) ∧
    (s.executes x r opAbs → ∃ m, exec (.abs x) s = .next (m.slotDone x r) ∧ SlotSaturates s m r (((s.opA r).val.toInt.natAbs
      : Int)) ((s.opA r).taint)) ∧
    (s.executes x r opNeg → ∃ m, exec (.neg x) s = .next (m.slotDone x r) ∧ SlotSaturates s m r (-(s.opA r).val.toInt)
      ((s.opA r).taint)) ∧
    (s.executes x r opShl → ∃ m, exec (.shl x) s = .next (m.slotDone x r) ∧ SlotSaturates s m r ((s.opA r).val.toInt * 2 ^
      (s.slotAt r).b) ((s.opA r).taint)) ∧
    (s.executes x r opShr → ∃ m, exec (.shr x) s = .next (m.slotDone x r) ∧ SlotSaturates s m r (roundDiv (s.opA r).val.toInt
      (2 ^ (s.slotAt r).b)) ((s.opA r).taint)) ∧
    (s.executes x r opAdd → ∃ m, exec (.add x) s = .next (m.slotDone x r) ∧ SlotSaturates s m r ((s.opA r).val.toInt + (s.opB
      r).val.toInt) ((s.opA r).taint || (s.opB r).taint)) ∧
    (s.executes x r opSub → ∃ m, exec (.sub x) s = .next (m.slotDone x r) ∧ SlotSaturates s m r ((s.opA r).val.toInt - (s.opB
      r).val.toInt) ((s.opA r).taint || (s.opB r).taint)) ∧
    (s.executes x r opMin → ∃ m, exec (.min x) s = .next (m.slotDone x r) ∧ SlotSaturates s m r (min (s.opA r).val.toInt
      (s.opB r).val.toInt) ((s.opA r).taint || (s.opB r).taint)) ∧
    (s.executes x r opMax → ∃ m, exec (.max x) s = .next (m.slotDone x r) ∧ SlotSaturates s m r (max (s.opA r).val.toInt
      (s.opB r).val.toInt) ((s.opA r).taint || (s.opB r).taint)) ∧
    (s.executes x r opMuls32 → ∃ m, exec (.muls32 x) s = .next (m.slotDone x r) ∧ SlotSaturates s m r (roundDiv ((s.opA
      r).val.toInt * (s.opB r).val.toInt) (2 ^ 32)) ((s.opA r).taint || (s.opB r).taint))

/-- For a slot word that the tables allow in a run with effect: CLAMP gives A brought to the bounds at SRCB and SRCB + 1, the
upper one standing where they cross; SEL gives A where C is 1, else B, with the taint of C and of the operand taken alone;
LDI gives the 36-bit immediate times 2^(4 MOD), without taint; ACCST gives ACC over 2^SRCB to the nearest, saturated; SIN
and COS give their word of the low 32 bits of A, with the taint of A. The word of SIN and COS lies within the bound of R90
of the exact value and is open within it. The run of the tile then goes on (SlotWordsAdvanceTheRun). Every other operand of
the easel reads as before, and nothing else changes but the easel's memory books. -/
def Obligations.SelectingSlotsWriteTheirResult : Prop :=
  ∀ (s : State) (x : Fin 16) (r : Run),
    (s.executes x r opClamp → ∃ m, exec (.clamp x) s = .next (m.slotDone x r) ∧ SlotSaturates s m r (clampInt (s.opA
      r).val.toInt (s.opB r).val.toInt (s.opB1 r).val.toInt) ((s.opA r).taint || (s.opB r).taint || (s.opB1 r).taint)) ∧
    (s.executes x r opSel → ∃ m, exec (.sel x) s = .next (m.slotDone x r) ∧ SlotSaturates s m r ((if s.tiles[x].c then (s.opA
      r).val.toInt else (s.opB r).val.toInt)) ((if s.tiles[x].c then (s.opA r).taint else (s.opB r).taint) ||
      s.tiles[x].cTaint)) ∧
    (s.executes x r opLdi → ∃ m, exec (.ldi x) s = .next (m.slotDone x r) ∧ SlotResult s m r ⟨sat40 ((BitVec.ofNat 36
      ((s.slotAt r).a * 2 ^ 18 + (s.slotAt r).b)).toInt * 2 ^ (4 * (s.slotAt r).md)), false⟩ (saturates 40 ((BitVec.ofNat 36
      ((s.slotAt r).a * 2 ^ 18 + (s.slotAt r).b)).toInt * 2 ^ (4 * (s.slotAt r).md)))) ∧
    (s.executes x r opAccst → ∃ m, exec (.accst x) s = .next (m.slotDone x r) ∧ SlotResult s m r ⟨sat40 (roundDiv
      s.tiles[x].acc.toInt (2 ^ (s.slotAt r).b)), s.tiles[x].accTaint⟩ (saturates 40 (roundDiv s.tiles[x].acc.toInt (2 ^
      (s.slotAt r).b)))) ∧
    (s.executes x r opSin → ∃ m, exec (.sin x) s = .next (m.slotDone x r) ∧ SlotResult s m r ⟨sinWord ((s.opA r).val.setWidth
      32), (s.opA r).taint⟩ (s.satA r)) ∧
    (s.executes x r opCos → ∃ m, exec (.cos x) s = .next (m.slotDone x r) ∧ SlotResult s m r ⟨cosWord ((s.opA r).val.setWidth
      32), (s.opA r).taint⟩ (s.satA r))

/-- For a slot word that the tables allow in a run with effect: NOP changes nothing; CMPLT and CMPLE set C to the comparison;
MACZ, MAC and MSU set ACC to A times B, to ACC plus it, to ACC minus it, exact and saturated to 88 bits, with the taint of
the operands and, for MAC and MSU, of the old ACC; INTEG writes the committed state word plus A, saturated and brought to
the bounds at SRCB and SRCB + 1, with C set where the bounds changed it; CHK sets CHK_FAIL of the pass where |A - B|
exceeds the word at DST or one of the three is tainted, and otherwise changes nothing but the books of the memory it read.
The run of the tile then goes on (SlotWordsAdvanceTheRun). Every other operand of the easel reads as before, and nothing
else changes but the easel's memory books. -/
def Obligations.TileRegisterSlotsSetAccAndC : Prop :=
  ∀ (s : State) (x : Fin 16) (r : Run),
    (s.executes x r opNop → ∃ m, exec (.nop x) s = .next (m.slotDone x r) ∧ m = s) ∧
    (s.executes x r opCmplt → ∃ m, exec (.cmplt x) s = .next (m.slotDone x r) ∧ SlotTile s m x r (s.tiles[x].withC (decide
      ((s.opA r).val.toInt < (s.opB r).val.toInt)) ((s.opA r).taint || (s.opB r).taint)) (s.satA r)) ∧
    (s.executes x r opCmple → ∃ m, exec (.cmple x) s = .next (m.slotDone x r) ∧ SlotTile s m x r (s.tiles[x].withC (decide
      ((s.opA r).val.toInt ≤ (s.opB r).val.toInt)) ((s.opA r).taint || (s.opB r).taint)) (s.satA r)) ∧
    (s.executes x r opMacz → ∃ m, exec (.macz x) s = .next (m.slotDone x r) ∧ SlotTile s m x r (s.tiles[x].withAcc (((s.opA
      r).val.toInt * (s.opB r).val.toInt)) ((s.opA r).taint || (s.opB r).taint)) (s.satA r || saturates 88 (((s.opA
      r).val.toInt * (s.opB r).val.toInt)))) ∧
    (s.executes x r opMac → ∃ m, exec (.mac x) s = .next (m.slotDone x r) ∧ SlotTile s m x r (s.tiles[x].withAcc
      (s.tiles[x].acc.toInt + ((s.opA r).val.toInt * (s.opB r).val.toInt)) ((s.opA r).taint || (s.opB r).taint ||
      s.tiles[x].accTaint)) (s.satA r || saturates 88 (s.tiles[x].acc.toInt + ((s.opA r).val.toInt * (s.opB r).val.toInt)))) ∧
    (s.executes x r opMsu → ∃ m, exec (.msu x) s = .next (m.slotDone x r) ∧ SlotTile s m x r (s.tiles[x].withAcc
      (s.tiles[x].acc.toInt - ((s.opA r).val.toInt * (s.opB r).val.toInt)) ((s.opA r).taint || (s.opB r).taint ||
      s.tiles[x].accTaint)) (s.satA r || saturates 88 (s.tiles[x].acc.toInt - ((s.opA r).val.toInt * (s.opB r).val.toInt)))) ∧
    (s.executes x r opInteg → ∃ m, exec (.integ x) s = .next (m.slotDone x r) ∧ (m.readOp r.easel (s.slotAt r).dst).1 =
      ⟨BitVec.ofInt 40 (clampInt (satInt 40 ((s.readMem r.easel ((s.slotAt r).dst - 0x1000)).1.val.toInt + (s.opA
      r).val.toInt)) (s.opB r).val.toInt (s.opB1 r).val.toInt), ((s.opA r).taint || (s.readMem r.easel ((s.slotAt r).dst -
      0x1000)).1.taint || (s.opB r).taint || (s.opB1 r).taint)⟩ ∧ (∀ a, a ≠ (s.slotAt r).dst → (m.readOp r.easel a).1 =
      (s.readOp r.easel a).1) ∧ m.tiles[x] = s.tiles[x].withC (clampInt (satInt 40 ((s.readMem r.easel ((s.slotAt r).dst -
      0x1000)).1.val.toInt + (s.opA r).val.toInt)) (s.opB r).val.toInt (s.opB1 r).val.toInt != satInt 40 ((s.readMem r.easel
      ((s.slotAt r).dst - 0x1000)).1.val.toInt + (s.opA r).val.toInt)) ((s.opA r).taint || (s.readMem r.easel ((s.slotAt
      r).dst - 0x1000)).1.taint || (s.opB r).taint || (s.opB1 r).taint) ∧ (m.ez r.easel).pass = (s.ez r.easel).pass.map
      (Pass.marked (s.satA r || saturates 40 ((s.readMem r.easel ((s.slotAt r).dst - 0x1000)).1.val.toInt + (s.opA
      r).val.toInt)) false) ∧ (∃ k, Keeps (memoryTouches r.easel) s k ∧ m = k.modTile x fun _ => m.tiles[x])) ∧
    (s.executes x r opChk → ∃ m, exec (.chk x) s = .next (m.slotDone x r) ∧ Keeps (memoryTouches r.easel) s m ∧ (m.ez
      r.easel).pass = (s.ez r.easel).pass.map (Pass.marked (s.satA r) ((s.opA r).taint || (s.opB r).taint || (s.opD r).taint
      || decide ((((s.opA r).val.toInt - (s.opB r).val.toInt).natAbs : Int) > (s.opD r).val.toInt))) ∧ (∀ a, (m.readOp
      r.easel a).1 = (s.readOp r.easel a).1))

/-- The command of each slot opcode (R88). -/
def slotCommands (x : Fin 16) : List (Nat × Instr) :=
  [(opNop, .nop x), (opMov, .mov x), (opAdd, .add x), (opSub, .sub x), (opMin, .min x), (opMax, .max x), (opAbs, .abs x),
   (opNeg, .neg x), (opClamp, .clamp x), (opSel, .sel x), (opCmplt, .cmplt x), (opCmple, .cmple x), (opShl, .shl x),
   (opShr, .shr x), (opLdi, .ldi x), (opMacz, .macz x), (opMac, .mac x), (opMsu, .msu x), (opAccst, .accst x),
   (opMuls32, .muls32 x), (opInteg, .integ x), (opSin, .sin x), (opCos, .cos x), (opChk, .chk x)]

/-- For a tile with a run in progress: while slot words of the run are left, the tile keeps the run with one more word done, its
ACC and C as they are; after the last word the tile is idle. The other tiles keep what they hold but for the mark of a run
without effect. A run without effect runs through its words and leaves nothing else behind, and an INTAKE run outside an intake pass runs
through them without their effects: for every slot opcode, the command only advances it. -/
def Obligations.SlotWordsAdvanceTheRun : Prop :=
  ∀ (s : State) (x : Fin 16) (r : Run), s.tiles[x].run = some r →
    (r.done + 1 < (s.img.half r.half).runLen r.header →
      (s.slotDone x r).tiles[x] = { s.tiles[x] with run := some { r with done := r.done + 1 } }) ∧
    ((s.img.half r.half).runLen r.header ≤ r.done + 1 → (s.slotDone x r).tiles[x].run = none) ∧
    (∀ y : Fin 16, y ≠ x → (s.slotDone x r).tiles[y] =
      { s.tiles[y] with run := s.tiles[y].run.map fun q => { q with dead := ((s.slotDone x r).tiles[y].run.map Run.dead).getD false } }) ∧
    (r.dead = true → (s.slotDone x r).easels = s.easels) ∧
    (r.dead = true ∨ r.mute = true →
      ∀ c ∈ slotCommands x, (s.slotAt r).op = c.1 → exec c.2 s = .next (s.slotDone x r))

/-- For every opcode of 8 bits, destination and sources of 18 bits and modifier of 2 bits, the slot word composed of them from
bit 0 up (opcode, DST, SRCA, SRCB, MOD) is read as these fields. -/
def Obligations.SlotWordFieldsAreRead : Prop :=
  ∀ (op dst a b md : Nat), op < 2 ^ 8 → dst < 2 ^ 18 → a < 2 ^ 18 → b < 2 ^ 18 → md < 2 ^ 2 →
    slotOf (op + dst * 2 ^ 8 + a * 2 ^ 26 + b * 2 ^ 44 + md * 2 ^ 62) = { op := op, dst := dst, a := a, b := b, md := md }

/-- With the doorbell read of an easel outstanding and not overtaken by an outage: words whose heads lie in their rings and
whose tail lies within the command ring set DB_SEEN and the three heads; the descriptors to fetch are counted by what is
available, allowed and free, and their reads, from CMD_HEAD on and in two parts where they pass the end of the ring, issue
within 100 ns; a head or a tail outside its ring, or one with reserved bits, makes the easel unpredictable. A read or a
descriptor that comes before then finds the reads issued. A well-formed descriptor in its group order enters the ledger
behind all others, which keep their descriptors, as PENDING, or as ABORTED behind an aborted part of its group, and CMD_HEAD
moves on by one; with the last one read the intake ends. A malformed one makes the easel unpredictable. The first failed
read of an intake sets INTAKE_ERR, counts it with its stop, is reported as an error of the function, leaves ledger and
CMD_HEAD as they are, and posts INTAKE_ERR where staging has room; later ones are not counted, and no descriptor is accepted
behind it; with the last read outstanding the intake ends. -/
def Obligations.IntakeTakesHeadsAndDescriptors : Prop :=
  ∀ (s : State) (e : Fin 8), (s.ez e).intakeStale = false →
    (∀ (preload : Bool) (w : Vector (BitVec 64) 4) (bad : Bool), (s.ez e).intake = .doorbell preload →
      bad = (headBad (w[1].setWidth 16) (s.ez e).cplHead (s.cplTail e)
        || headBad (w[2].setWidth 16) (s.ez e).evt.head (BitVec.ofNat 16 (s.get (R.RING_IDX1_EVT_TAIL e)))
        || headBad (w[3].setWidth 16) (s.ez e).smp.head (BitVec.ofNat 16 (s.get (R.RING_IDX1_SMP_TAIL e)))
        || decide (2 ^ s.get (R.RING_SIZE_CMD_LOG2 e) < (w[0].setWidth 16 - s.cmdHead e).toNat)
        || w[0].ushiftRight 16 != 0 || w[1].ushiftRight 16 != 0 || w[2].ushiftRight 16 != 0 || w[3].ushiftRight 16 != 0) →
      ∃ t, exec (.doorbellReadComplete e (some w)) s = .next t ∧ (bad = true → (t.ez e).unpred = true) ∧
      (bad = false → t.get (R.DB_SEEN_CMD_TAIL e) = w[0].toNat ∧ (t.ez e).cplHead = w[1].setWidth 16 ∧
        (t.ez e).evt.head = w[2].setWidth 16 ∧ (t.ez e).smp.head = w[3].setWidth 16 ∧
        (t.ez e).intake = (if t.fetchCount e preload (w[0].setWidth 16) = 0 then .idle
          else .fetch (s.slotReads e (t.fetchCount e preload (w[0].setWidth 16)))) ∧
        s.age ≤ (t.ez e).issueAt ∧ (t.ez e).issueAt ≤ s.age + 1250 ∧
        Keeps (touches [(R.DB_SEEN_CMD_TAIL e).addr] [.free] [e]) s t)) ∧
    (∀ (reads : List (BitVec 64 × Nat)) (u : State), (s.ez e).intake = .fetch reads → u = s.reachAge (s.ez e).issueAt →
      (u.ez e).intake = .fetch reads → ((s.issueReads e).ez e).intake = .descs reads ∧
      (s.issueReads e).outbox = u.outbox ++ reads.map (fun r => HostMsg.read r.1 (64 * r.2)) ∧
      (∀ d, exec (.descriptorAccept e d) s = exec (.descriptorAccept e d) (s.issueReads e)) ∧
      exec (.dmaReadFail e) s = exec (.dmaReadFail e) (s.issueReads e)) ∧
    (∀ (d : Entry) (l : List (BitVec 64 × Nat)), (s.ez e).intake = .descs l → ∃ t, exec (.descriptorAccept e d) s = .next t ∧
      ((s.ez e).intakeBad = true → (t.ez e).ledger = (s.ez e).ledger ∧ t.cmdHead e = s.cmdHead e) ∧
      ((s.ez e).intakeBad = false → (d.malformed = true ∨ breaksGroup (s.ez e).ledger.getLast? d = true) →
        (t.ez e).unpred = true) ∧
      ((s.ez e).intakeBad = false → d.malformed = false → breaksGroup (s.ez e).ledger.getLast? d = false →
        (t.ez e).ledger.map (fun x => x.desc) = (s.ez e).ledger.map (fun x => x.desc) ++ [d] ∧
        (t.ez e).ledger.getLast?.map (fun x => (x.st, x.cmdIdx, x.resv)) = some (if (s.ez e).ledger.getLast?.any (fun p =>
          p.st == .aborted && decide (p.desc.gpos < p.desc.glenM1) && d.gpos != 0) then .aborted else .pending, s.cmdHead e, true) ∧
        t.cmdHead e = s.cmdHead e + 1 ∧
        (t.ez e).intake = (if (nextSlot l).isEmpty then .idle else .descs (nextSlot l)) ∧
        Keeps (touches [(R.RING_IDX0_CMD_HEAD e).addr] [.outbox, .functions] [e]) s t)) ∧
    (∀ (c : Instr) (rest : IntakePhase), (c = .doorbellReadComplete e none ∧ (∃ b, (s.ez e).intake = .doorbell b) ∧ rest = .idle) ∨
      (c = .dmaReadFail e ∧ (∃ b, (s.ez e).intake = .doorbell b) ∧ rest = .idle) ∨
      (c = .dmaReadFail e ∧ ∃ l, (s.ez e).intake = .descs l ∧ rest = (if l.tail.isEmpty then .idle else .descs l.tail)) →
      ∃ t, exec c s = .next t ∧ (t.ez e).intake = rest ∧ (t.ez e).ledger = (s.ez e).ledger ∧ t.cmdHead e = s.cmdHead e ∧
      t.pcie[fnOf e].aer &&& 0x5000 ≠ 0 ∧
      ((s.ez e).intakeBad = false → t.flag (R.RING_STATUS_INTAKE_ERR e) = true ∧ t.get (R.INTAKE_ERR_CNT_COUNT e) =
        min (R.INTAKE_ERR_CNT_COUNT e).top (s.get (R.INTAKE_ERR_CNT_COUNT e) + 1) ∧
        ((s.ez e).evt.entries.length < 31 → Staged (t.ez e).evt 0x40 s.time)) ∧
      ((s.ez e).intakeBad = true → t.get (R.INTAKE_ERR_CNT_COUNT e) = s.get (R.INTAKE_ERR_CNT_COUNT e)) ∧
      Keeps (touches [(R.INTAKE_ERR_CNT_COUNT e).addr] [.outbox, .functions, .free] [e]) s t)

/-- For an easel without an outage and with a grant window, and for F0 with its ring served, and no read outstanding, the
poll comes 1,024 coarse ticks after the one before, or after the enable: if DMA may still issue then, and no other request
of the link comes first, the read of the heads is the next message. The read that completes with heads in their rings and
without reserved bits, and that no outage has overtaken, takes them; other heads make the easel, or the F0 ring,
unpredictable; a read that fails leaves every head as it is and is reported as an error of the function. In each case no
read is outstanding afterwards. -/
def Obligations.HeadPollsTakeTheHeads : Prop :=
  ∀ (s : State),
    (∀ (e : Fin 8) (u : State), s.mayDma e = true → (s.ez e).poll = false → u = s.reachAge ((s.ez e).pollFrom + 128000) →
      ∃ t, exec (.headPoll (.easel e)) s = .next t ∧ (u.mayDma e = false → t = u) ∧
      (u.mayDma e = true → u.linkFree (fnOf e) 1 = true → (t.ez e) =
        { u.ez e with poll := true, pollStale := false, pollFrom := lastPoll (u.ez e).pollFrom u.age } ∧
        t.outbox = u.outbox ++ [.read (u.hcb e 8) 24] ∧ t.turn = fnOf e ∧ Keeps (touches [] [.outbox, .functions] [e]) u t)) ∧
    (∀ (u : State), s.f0Served = true → s.f0Poll = false → u = s.reachAge (s.f0PollFrom + 128000) →
      ∃ t, exec (.headPoll .f0) s = .next t ∧ (u.f0Served = false → t = u) ∧
      (u.f0Served = true → u.linkFree 0 1 = true → t.f0Poll = true ∧ t.f0PollFrom = lastPoll u.f0PollFrom u.age ∧
        t.outbox = u.outbox ++ [.read (BitVec.ofNat 64 (u.get2 R.F0_HCB_HI_ADDR_HI R.F0_HCB_LO_ADDR_LO + 0x10)) 8] ∧
        t.turn = 0 ∧ Keeps (touches [] [.f0Poll, .outbox, .functions]) u t)) ∧
    (∀ (e : Fin 8) (w : Vector (BitVec 64) 3) (bad : Bool), (s.ez e).poll = true → (s.ez e).pollStale = false →
      bad = (headBad (w[0].setWidth 16) (s.ez e).cplHead (s.cplTail e)
        || headBad (w[1].setWidth 16) (s.ez e).evt.head (BitVec.ofNat 16 (s.get (R.RING_IDX1_EVT_TAIL e)))
        || headBad (w[2].setWidth 16) (s.ez e).smp.head (BitVec.ofNat 16 (s.get (R.RING_IDX1_SMP_TAIL e)))
        || w[0].ushiftRight 16 != 0 || w[1].ushiftRight 16 != 0 || w[2].ushiftRight 16 != 0) →
      ∃ t, exec (.headPollComplete (.easel e) (some w)) s = .next t ∧ (bad = true → (t.ez e).unpred = true) ∧
      (bad = false → (t.ez e).cplHead = w[0].setWidth 16 ∧ (t.ez e).evt.head = w[1].setWidth 16 ∧
        (t.ez e).smp.head = w[2].setWidth 16 ∧ (t.ez e).poll = false ∧ Keeps (touches [] [] [e]) s t)) ∧
    (∀ (e : Fin 8), (s.ez e).poll = true → ∃ t, exec (.headPollComplete (.easel e) none) s = .next t ∧ (t.ez e) =
      { s.ez e with poll := false, pollStale := false } ∧ t.pcie[fnOf e].aer &&& 0x5000 ≠ 0 ∧
      Keeps (touches [] [.functions, .free] [e]) s t) ∧
    (∀ (w : Vector (BitVec 64) 3) (bad : Bool), s.f0Poll = true → s.f0PollStale = false → bad = (headBad (w[1].setWidth 16)
      s.f0.head (BitVec.ofNat 16 (s.get R.F0_RING_STATUS_EVT_TAIL)) || w[1].ushiftRight 16 != 0) →
      ∃ t, exec (.headPollComplete .f0 (some w)) s = .next t ∧ t.f0.head = w[1].setWidth 16 ∧ t.f0Poll = false ∧
      (bad = true → t.unpredRegs.contains R.F0_RING_STATUS_EVT_TAIL.addr = true) ∧
      (bad = false → Keeps (touches [] [.f0Poll]) s t)) ∧
    (s.f0Poll = true → ∃ t, exec (.headPollComplete .f0 none) s = .next t ∧ t.f0.head = s.f0.head ∧ t.f0Poll = false ∧
      t.pcie[(0 : Fin 9)].aer &&& 0x5000 ≠ 0 ∧ Keeps (touches [] [.f0Poll, .functions, .free]) s t)

/-- For an easel that may issue DMA, with no other request of the link that comes first: with completions that can be
written the device sends one completion entry per transaction, in ledger order, to consecutive slots from CPL_TAIL on, and
then ST_CPL with the new CPL_TAIL, CMD_HEAD and downbeat; CPL_TAIL moves on by their number; their entries leave the ledger,
whose index RET moves on with them; the entries behind stay as they are. Without one, an ST_CPL that an outage held back is
sent alone. -/
def Obligations.EndedTransactionsGoToTheCompletionRing : Prop :=
  ∀ (s : State) (e : Fin 8), s.mayDma e = true → s.linkFree (fnOf e) 2 = true →
    ((s.ez e).writable.isEmpty = false → ∃ t, exec (.completionWrite e) s = .next t ∧ t.outbox.take
      (s.outbox.length + (s.ez e).writable.length + 1) = s.outbox ++ ((s.ez e).writable.zipIdx.map fun g => HostMsg.write
      (s.slotAddr e (s.get (R.CPL_BASE_OFF e)) (s.get (R.RING_SIZE_CPL_LOG2 e)) (s.cplTail e + BitVec.ofNat 16 g.2))
      (completionWords g.1)) ++ [HostMsg.write (s.hcb e 0x20) [BitVec.ofNat 64 ((t.cplTail e).toNat + 2 ^ 16 * (t.cmdHead
      e).toNat + 2 ^ 32 * (t.ez e).cplDb.toNat)]] ∧ t.cplTail e = s.cplTail e + BitVec.ofNat 16 (s.ez e).writable.length ∧
      (t.ez e).ledger = (s.ez e).ledger.drop ((s.ez e).writable.map List.length).sum ∧ (t.ez e).ret = (s.ez e).ret +
      BitVec.ofNat 13 ((s.ez e).writable.map List.length).sum ∧ t.cmdHead e = s.cmdHead e ∧ (t.ez e).stOwed = false ∧
      Keeps (touches [(R.RING_IDX0_CPL_TAIL e).addr] [.outbox, .functions] [e]) s t) ∧
    ((s.ez e).writable.isEmpty = true → (s.ez e).stOwed = true → ∃ t, exec (.completionWrite e) s = .next t ∧
      t.outbox.take (s.outbox.length + 1) = s.outbox ++ [HostMsg.write (s.hcb e 0x20) [BitVec.ofNat 64 ((s.cplTail e).toNat +
      2 ^ 16 * (s.cmdHead e).toNat + 2 ^ 32 * (s.ez e).cplDb.toNat)]] ∧ (t.ez e).ledger = (s.ez e).ledger ∧
      (t.ez e).stOwed = false ∧ Keeps (touches [] [.outbox, .functions] [e]) s t)

/-- For the event ring and the sample ring of an easel that may issue DMA, and for the F0 event ring while it is served, with an entry in staging, room for two in the ring, and no other request of the link that comes first: where entries were dropped the device sends the gap marker first; it sends
the oldest entry to the next slot and then the status word with the new tail and gap count; the tail moves on by the
entries sent, and staging loses that entry and its count of drops. -/
def Obligations.StagedEntriesGoToTheirRings : Prop :=
  ∀ (s : State),
    (∀ (e : Fin 8) (x : EventE) (q : List EventE), (s.ez e).evt.entries = x :: q → s.mayDma e = true → s.linkFree (fnOf e) 3 = true → 2 ≤ ringFree (s.get
      (R.RING_SIZE_EVT_LOG2 e)) (BitVec.ofNat 16 (s.get (R.RING_IDX1_EVT_TAIL e))) (s.ez e).evt.head → ∃ t, exec
      (.stagingDrain (.easel e) .event) s = .next t ∧ t.outbox.take (s.outbox.length + (if (s.ez e).evt.drops > 0 then 1 else
      0) + 2) = s.outbox ++ (if (s.ez e).evt.drops > 0 then [HostMsg.write (s.slotAddr e (s.get (R.EVT_BASE_OFF e)) (s.get
      (R.RING_SIZE_EVT_LOG2 e)) (BitVec.ofNat 16 (s.get (R.RING_IDX1_EVT_TAIL e)) + 0)) (gapWords 1 (s.ez e).evt.drops (s.ez
      e).evt.tDrop)] else []) ++ [HostMsg.write (s.slotAddr e (s.get (R.EVT_BASE_OFF e)) (s.get (R.RING_SIZE_EVT_LOG2 e))
      (BitVec.ofNat 16 (s.get (R.RING_IDX1_EVT_TAIL e)) + (if (s.ez e).evt.drops > 0 then 1 else 0))) (x.words),
      HostMsg.write (s.hcb e 0x28) [statusWord (BitVec.ofNat 16 (s.get (R.RING_IDX1_EVT_TAIL e)) + (if (s.ez e).evt.drops > 0
      then 1 else 0) + 1).toNat ((s.ez e).evt.gaps + (if (s.ez e).evt.drops > 0 then 1 else 0))]] ∧ BitVec.ofNat 16 (t.get
      (R.RING_IDX1_EVT_TAIL e)) = BitVec.ofNat 16 (s.get (R.RING_IDX1_EVT_TAIL e)) + (if (s.ez e).evt.drops > 0 then 1 else
      0) + 1 ∧ (t.ez e).evt.entries = (s.ez e).evt.entries.tail ∧ (t.ez e).evt.drops = 0 ∧ Keeps (touches
      [(R.RING_IDX1_EVT_TAIL e).addr] [.outbox, .functions]) s t) ∧
    (∀ (e : Fin 8) (x : SampleE) (q : List SampleE), (s.ez e).smp.entries = x :: q → s.mayDma e = true → s.linkFree (fnOf e) 4 = true → 2 ≤ ringFree (s.get
      (R.RING_SIZE_SMP_LOG2 e)) (BitVec.ofNat 16 (s.get (R.RING_IDX1_SMP_TAIL e))) (s.ez e).smp.head → ∃ t, exec
      (.stagingDrain (.easel e) .sample) s = .next t ∧ t.outbox.take (s.outbox.length + (if (s.ez e).smp.drops > 0 then 1
      else 0) + 2) = s.outbox ++ (if (s.ez e).smp.drops > 0 then [HostMsg.write (s.slotAddr e (s.get (R.SMP_BASE_OFF e))
      (s.get (R.RING_SIZE_SMP_LOG2 e)) (BitVec.ofNat 16 (s.get (R.RING_IDX1_SMP_TAIL e)) + 0)) (gapWords 2 (s.ez e).smp.drops
      (s.ez e).smp.tDrop)] else []) ++ [HostMsg.write (s.slotAddr e (s.get (R.SMP_BASE_OFF e)) (s.get (R.RING_SIZE_SMP_LOG2
      e)) (BitVec.ofNat 16 (s.get (R.RING_IDX1_SMP_TAIL e)) + (if (s.ez e).smp.drops > 0 then 1 else 0))) (x.words e),
      HostMsg.write (s.hcb e 0x30) [statusWord (BitVec.ofNat 16 (s.get (R.RING_IDX1_SMP_TAIL e)) + (if (s.ez e).smp.drops > 0
      then 1 else 0) + 1).toNat ((s.ez e).smp.gaps + (if (s.ez e).smp.drops > 0 then 1 else 0))]] ∧ BitVec.ofNat 16 (t.get
      (R.RING_IDX1_SMP_TAIL e)) = BitVec.ofNat 16 (s.get (R.RING_IDX1_SMP_TAIL e)) + (if (s.ez e).smp.drops > 0 then 1 else
      0) + 1 ∧ (t.ez e).smp.entries = (s.ez e).smp.entries.tail ∧ (t.ez e).smp.drops = 0 ∧ Keeps (touches
      [(R.RING_IDX1_SMP_TAIL e).addr] [.outbox, .functions] [e]) s t) ∧
    (∀ (x : EventE) (q : List EventE), s.f0.entries = x :: q → s.f0Served = true → s.linkFree 0 3 = true → 2 ≤ ringFree (s.get
      R.F0_RING_CTRL_EVT_LOG2) (BitVec.ofNat 16 (s.get R.F0_RING_STATUS_EVT_TAIL)) s.f0.head → ∃ t, exec (.stagingDrain .f0
      .event) s = .next t ∧ t.outbox.take (s.outbox.length + (if s.f0.drops > 0 then 1 else 0) + 2) = s.outbox ++ (if
      s.f0.drops > 0 then [HostMsg.write (BitVec.ofNat 64 (s.get2 R.F0_EVT_HI_ADDR_HI R.F0_EVT_LO_ADDR_LO + 64 *
      ((BitVec.ofNat 16 (s.get R.F0_RING_STATUS_EVT_TAIL) + 0).toNat % 2 ^ s.get R.F0_RING_CTRL_EVT_LOG2))) (gapWords 1
      s.f0.drops s.f0.tDrop)] else []) ++ [HostMsg.write (BitVec.ofNat 64 (s.get2 R.F0_EVT_HI_ADDR_HI R.F0_EVT_LO_ADDR_LO +
      64 * ((BitVec.ofNat 16 (s.get R.F0_RING_STATUS_EVT_TAIL) + (if s.f0.drops > 0 then 1 else 0)).toNat % 2 ^ s.get
      R.F0_RING_CTRL_EVT_LOG2))) (x.words), HostMsg.write (BitVec.ofNat 64 (s.get2 R.F0_HCB_HI_ADDR_HI R.F0_HCB_LO_ADDR_LO +
      0x28)) [statusWord (BitVec.ofNat 16 (s.get R.F0_RING_STATUS_EVT_TAIL) + (if s.f0.drops > 0 then 1 else 0) + 1).toNat
      (s.f0.gaps + (if s.f0.drops > 0 then 1 else 0))]] ∧ BitVec.ofNat 16 (t.get R.F0_RING_STATUS_EVT_TAIL) = BitVec.ofNat 16
      (s.get R.F0_RING_STATUS_EVT_TAIL) + (if s.f0.drops > 0 then 1 else 0) + 1 ∧ t.f0.entries = s.f0.entries.tail ∧
      t.f0.drops = 0 ∧ Keeps (touches [] [.outbox, .functions]) s t)

/-- For an agent that reaches it: enabling an easel's rings that were off, with RUN 0 and areas that are valid and clash with no
other window, sets EN and brings indices, heads and gap counts to 0; disabling clears EN. Enabling the F0 ring that was off
brings its tail and head to 0; disabling clears its EN. When the link leaves DL_Active, every ring and the F0 ring are
disabled, every easel has LINK_HOLD, no function is a bus master, each function's configuration starts anew, and LINK_FAULT_CNT counts with its
stop; when one easel function loses Bus Master Enable, that easel alone is so, and F0 loses its own alone. A link that comes up shows
its speed and width, and the host's configuration of each function is in force. A Function Level Reset of an easel function starts
the reset of that easel and clears its Bus Master Enable; of F0 it clears Bus Master Enable and EN of F0; each function's
configuration starts anew. (The reset values of a function's configuration are PCI Express's own, log entry 100.) -/
def Obligations.RingEnablesAndLinkFaults : Prop :=
  ∀ (s : State),
    (∀ (e : Fin 8) (a : Agent), s.reachesWindow a e = true → s.flag (R.RING_CTRL_EN e) = false → s.run e = false → s.ringsBad
      e = false → (s.setFlag (R.RING_CTRL_EN e) true).grantClash e = [] → ∃ t, exec (.ringEn e a true) s = .next t ∧ t.flag
      (R.RING_CTRL_EN e) = true ∧ t.cmdHead e = 0 ∧ t.cplTail e = 0 ∧ t.get (R.RING_IDX1_EVT_TAIL e) = 0 ∧ t.get
      (R.RING_IDX1_SMP_TAIL e) = 0 ∧ (t.ez e).cplHead = 0 ∧ (t.ez e).evt.head = 0 ∧ (t.ez e).smp.head = 0 ∧ (t.ez e).evt.gaps
      = 0 ∧ (t.ez e).smp.gaps = 0 ∧ (t.ez e).pollFrom = s.age ∧ Keeps (touches [(R.RING_CTRL_EN e).addr, (R.RING_IDX0_CMD_HEAD e).addr,
      (R.RING_IDX1_EVT_TAIL e).addr] [] [e]) s t) ∧
    (∀ (e : Fin 8) (a : Agent), s.reachesWindow a e = true → ∃ t, exec (.ringEn e a false) s = .next t ∧ t.flag
      (R.RING_CTRL_EN e) = false ∧ Keeps (touches [(R.RING_CTRL_EN e).addr] [] [e]) s t) ∧
    (∀ (a : Agent), s.reaches a = true → s.flag R.F0_RING_CTRL_EN = false → ∃ t, exec (.f0RingEn a true) s = .next t ∧ t.flag
      R.F0_RING_CTRL_EN = true ∧ t.get R.F0_RING_STATUS_EVT_TAIL = 0 ∧ t.f0.head = 0 ∧ t.f0PollFrom = s.age ∧ (s.sup.bootReport = true →
      s.f0.entries.length < 32 → Staged t.f0 0x806 s.time) ∧ t.sup.bootReport = false) ∧
    (∀ (a : Agent), s.reaches a = true → ∃ t, exec (.f0RingEn a false) s = .next t ∧ t.flag R.F0_RING_CTRL_EN = false ∧ Keeps
      (touches [R.F0_RING_CTRL_EN.addr] [.f0Poll]) s t) ∧
    (s.dlActive = true → ∃ t, exec (.linkFault .dlDown) s = .next t ∧ t.dlActive = false ∧ t.bme = 0 ∧ (∀ g : Fin 9, t.pcie[g] = { aer := s.pcie[g].aer }) ∧ t.flag R.F0_RING_CTRL_EN = false ∧ (∀ d : Fin 8, t.flag (R.RING_CTRL_EN d) = false ∧ t.flag (R.RING_STATUS_LINK_HOLD d) =
      true) ∧ t.get R.LINK_STATUS_LINK_FAULT_CNT = min R.LINK_STATUS_LINK_FAULT_CNT.top (s.get R.LINK_STATUS_LINK_FAULT_CNT +
      1) ∧ (∀ d : Fin 8, (s.ez d).evt.entries.length < 32 → Staged (t.ez d).evt 0x41 s.time)) ∧
    (∀ (e : Fin 8) (fn : Fin 9), s.bme.getLsbD fn.val = true → fn.val = e.val + 1 → ∃ t, exec (.linkFault (.bmeClear fn)) s =
      .next t ∧ t.bme.getLsbD fn.val = false ∧ t.flag (R.RING_CTRL_EN e) = false ∧ t.flag (R.RING_STATUS_LINK_HOLD e) = true
      ∧ (∀ d : Fin 8, d ≠ e → t.flag (R.RING_CTRL_EN d) = s.flag (R.RING_CTRL_EN d) ∧ t.flag (R.RING_STATUS_LINK_HOLD d) =
      s.flag (R.RING_STATUS_LINK_HOLD d)) ∧ Keeps (touches [(R.RING_CTRL_EN e).addr, (R.RING_STATUS_LINK_HOLD e).addr,
      R.LINK_STATUS_LINK_FAULT_CNT.addr] [.bme] [e]) s t) ∧
    (s.bme.getLsbD 0 = true → ∃ t, exec (.linkFault (.bmeClear 0)) s = .next t ∧ t.bme.getLsbD 0 = false ∧
      (∀ g : Fin 9, g ≠ 0 → t.bme.getLsbD g.val = s.bme.getLsbD g.val) ∧ Keeps (touches [] [.bme, .f0Poll]) s t) ∧
    (∀ (speed width : BitVec 2) (bme msixEn msixMask payload256 : BitVec 9), ∃ t,
      exec (.linkUp speed width bme msixEn msixMask payload256) s = .next t ∧ t.dlActive = true ∧
      t.get R.LINK_STATUS_SPEED = speed.toNat ∧ t.get R.LINK_STATUS_WIDTH = width.toNat ∧ t.bme = s.bme ||| bme ∧
      (∀ g : Fin 9, t.pcie[g] = { s.pcie[g] with msixEn := msixEn.getLsbD g.val, msixMask := msixMask.getLsbD g.val,
                                                 payload256 := payload256.getLsbD g.val, pba := t.pcie[g].pba }) ∧
      Keeps (touches [R.LINK_STATUS_SPEED.addr] [.bme, .functions, .outbox]) s t) ∧
    (∀ (e : Fin 8) (fn : Fin 9), s.sup.inReset = false → fn.val = e.val + 1 → (s.ez e).reset = none → ∃ t, exec
      (.functionLevelReset fn) s = .next t ∧ (t.ez e).reset = some .functionLevelReset ∧ t.bme.getLsbD fn.val = false ∧ t.pcie[fn] = { aer := s.pcie[fn].aer } ∧ t.run
      e = false ∧ t.bit R.EASEL_RST_IN_RESET e.val = true) ∧
    (s.sup.inReset = false → ∃ t, exec (.functionLevelReset 0) s = .next t ∧ t.bme.getLsbD 0 = false ∧ t.pcie[(0 : Fin 9)] = { aer := s.pcie[(0 : Fin 9)].aer } ∧ t.flag R.F0_RING_CTRL_EN = false ∧ t.img.stage = .idle)

/-- Outside device reset, with RUN 0 and preload points active, outside supply hold and with no cause that withholds commits, for a pending transaction
of one descriptor alone in the ledger, without AT_EN, accepted at least 40 ns before the preload point: NOP leaves the
easel's memory as it is; STATE_WR and BANK_WR leave each word they name with its value and no taint; STATE_RD takes the
words as they stand; BANK_RD issues its bank reads, or, served at least 40 ns before, returns the words served. A
descriptor that takes effect is COMMITTED with the instant of the point, and LDG_LAST names it. With RUN 1 the five
commands are the next downbeat. -/
def Obligations.DescriptorsTakeEffectAtTheirCommit : Prop :=
  ∀ (s : State) (e : Fin 8), s.sup.inReset = false →
    (∀ (x : LEntry), s.run e = false → s.preloadActive e = true → s.nextHolds e cmdNop = true → (s.reachMultiple
      128000).preloadActive e = true → (s.reachMultiple 128000).hold = false → (s.reachMultiple 128000).withheldBy e = false
      → ((s.reachMultiple 128000).ez e).ledger = [x] → x.st = .pending → x.resv = true → x.err = allClean → x.desc.glenM1 = 0 →
      x.desc.atEn = false → x.accAge + 500 ≤ (s.reachMultiple 128000).age → x.desc.op = cmdNop → ∃ t, exec (.descriptorNop e)
      s = .next t ∧ (t.ez e).ledger.map (fun y => (y.st, y.desc)) = [(.committed, x.desc)] ∧ (t.ez e).ledger.map (fun y =>
      y.commitTs) = [stamp (s.reachMultiple 128000).time] ∧ t.get (R.LDG_LAST_HI_CMD_IDX e) = x.cmdIdx.toNat ∧ (t.ez e).mem =
      ((s.reachMultiple 128000).ez e).mem) ∧
    (∀ (x : LEntry), s.run e = false → s.preloadActive e = true → s.nextHolds e cmdStateWr = true → (s.reachMultiple
      128000).preloadActive e = true → (s.reachMultiple 128000).hold = false → (s.reachMultiple 128000).withheldBy e = false
      → ((s.reachMultiple 128000).ez e).ledger = [x] → x.st = .pending → x.resv = true → x.err = allClean → x.desc.glenM1 = 0 →
      x.desc.atEn = false → x.accAge + 500 ≤ (s.reachMultiple 128000).age → x.desc.op = cmdStateWr → ∃ t, exec (.stateWr e) s
      = .next t ∧ (t.ez e).ledger.map (fun y => (y.st, y.desc)) = [(.committed, x.desc)] ∧ (t.ez e).ledger.map (fun y =>
      y.commitTs) = [stamp (s.reachMultiple 128000).time] ∧ t.get (R.LDG_LAST_HI_CMD_IDX e) = x.cmdIdx.toNat ∧ (∀ j ∈
      x.desc.positions, (t.readMem e (x.desc.wordAt j.val)).1 = ⟨x.desc.val j, false⟩)) ∧
    (∀ (x : LEntry), s.run e = false → s.preloadActive e = true → s.nextHolds e cmdBankWr = true → (s.reachMultiple
      128000).preloadActive e = true → (s.reachMultiple 128000).hold = false → (s.reachMultiple 128000).withheldBy e = false
      → ((s.reachMultiple 128000).ez e).ledger = [x] → x.st = .pending → x.resv = true → x.err = allClean → x.desc.glenM1 = 0 →
      x.desc.atEn = false → x.accAge + 500 ≤ (s.reachMultiple 128000).age → x.desc.op = cmdBankWr → ∃ t, exec (.bankWr e) s =
      .next t ∧ (t.ez e).ledger.map (fun y => (y.st, y.desc)) = [(.committed, x.desc)] ∧ (t.ez e).ledger.map (fun y =>
      y.commitTs) = [stamp (s.reachMultiple 128000).time] ∧ t.get (R.LDG_LAST_HI_CMD_IDX e) = x.cmdIdx.toNat ∧ (∀ j ∈
      x.desc.positions, (t.readMem e (x.desc.wordAt j.val)).1 = ⟨x.desc.val j, false⟩)) ∧
    (∀ (x : LEntry), s.run e = false → s.preloadActive e = true → s.nextHolds e cmdStateRd = true → (s.reachMultiple
      128000).preloadActive e = true → (s.reachMultiple 128000).hold = false → (s.reachMultiple 128000).withheldBy e = false
      → ((s.reachMultiple 128000).ez e).ledger = [x] → x.st = .pending → x.resv = true → x.err = allClean → x.desc.glenM1 = 0 →
      x.desc.atEn = false → x.accAge + 500 ≤ (s.reachMultiple 128000).age → x.desc.op = cmdStateRd → ∃ t, exec (.stateRd e) s
      = .next t ∧ (t.ez e).ledger.map (fun y => (y.st, y.desc)) = [(.committed, x.desc)] ∧ (t.ez e).ledger.map (fun y =>
      y.commitTs) = [stamp (s.reachMultiple 128000).time] ∧ t.get (R.LDG_LAST_HI_CMD_IDX e) = x.cmdIdx.toNat ∧ (t.ez
      e).ledger.map (fun y => y.data) = [((s.reachMultiple 128000).readWords e x.desc).1]) ∧
    (∀ (x : LEntry), s.run e = false → s.preloadActive e = true → s.nextHolds e cmdBankRd = true → (s.reachMultiple
      128000).preloadActive e = true → (s.reachMultiple 128000).hold = false → (s.reachMultiple 128000).withheldBy e = false
      → ((s.reachMultiple 128000).ez e).ledger = [x] → x.st = .pending → x.resv = true → x.err = allClean → x.desc.glenM1 = 0 →
      x.desc.atEn = false → x.accAge + 500 ≤ (s.reachMultiple 128000).age → x.desc.op = cmdBankRd → x.read = .none → ∃ t,
      exec (.bankRd e) s = .next t ∧ (t.ez e).ledger.map (fun y => (y.st, y.read)) = [(.pending, .issued)]) ∧
    (∀ (x : LEntry) (at_ : Nat) (ws : List (Word × Bool)), s.run e = false → s.preloadActive e = true → s.nextHolds e
      cmdBankRd = true → (s.reachMultiple 128000).preloadActive e = true → (s.reachMultiple 128000).hold = false →
      (s.reachMultiple 128000).withheldBy e = false → ((s.reachMultiple 128000).ez e).ledger = [x] → x.st = .pending → x.resv
      = true → x.err = allClean → x.desc.glenM1 = 0 → x.desc.atEn = false → x.accAge + 500 ≤ (s.reachMultiple 128000).age →
      x.desc.op = cmdBankRd → x.read = .served at_ ws → at_ + 500 ≤ (s.reachMultiple 128000).age → ∃ t, exec (.bankRd e) s =
      .next t ∧ (t.ez e).ledger.map (fun y => (y.st, y.desc)) = [(.committed, x.desc)] ∧ (t.ez e).ledger.map (fun y =>
      y.commitTs) = [stamp (s.reachMultiple 128000).time] ∧ t.get (R.LDG_LAST_HI_CMD_IDX e) = x.cmdIdx.toNat ∧ (t.ez
      e).ledger.map (fun y => y.data) = [ws]) ∧
    (s.run e = true → s.nextHolds e cmdNop = true → ∃ t, exec (.descriptorNop e) s = .next t ∧ exec (.downbeat e) s = .next
      t) ∧
    (s.run e = true → s.nextHolds e cmdStateWr = true → ∃ t, exec (.stateWr e) s = .next t ∧ exec (.downbeat e) s = .next t) ∧
    (s.run e = true → s.nextHolds e cmdBankWr = true → ∃ t, exec (.bankWr e) s = .next t ∧ exec (.downbeat e) s = .next t) ∧
    (s.run e = true → s.nextHolds e cmdStateRd = true → ∃ t, exec (.stateRd e) s = .next t ∧ exec (.downbeat e) s = .next t) ∧
    (s.run e = true → s.nextHolds e cmdBankRd = true → ∃ t, exec (.bankRd e) s = .next t ∧ exec (.downbeat e) s = .next t)

/-- When the bank reads of the oldest issued BANK_RD are served, its entry holds the words as they stand and the others keep
theirs; in STALL mode the grants that made a tile wait count in QUOTA_USED, which they take no further than STALL_QUOTA. An ABORT by
an agent that reaches it is noted with its instant beside the earlier ones; with RUN 0, nothing unpredictable, 40 ns later no entry is
PENDING. For an agent that reaches F0's window, LDG_SEL with no reserved bit shows the selected entry: each of its eight descriptor
words, of LM0 and of LM1 in which no uncorrectable error lies. -/
def Obligations.LedgerReadsAbortsAndServes : Prop :=
  ∀ (s : State),
    (∀ (e : Fin 8) (stalled : Fin 6) (i : Nat) (x : LEntry), (s.ez e).issuedRead = some i → (s.ez e).ledger[i]? = some x → ∃
      t, exec (.bankReadComplete e stalled) s = .next t ∧ (t.ez e).ledger = ((s.ez e).ledger.mapIdx fun j y => if j = i then
      { y with read := .served s.age (s.readWords e x.desc).1 } else y) ∧
      t.get (R.MEM_STATUS_QUOTA_USED e) = (if s.flag (R.MEM_CTRL_ARB e) then s.get (R.MEM_STATUS_QUOTA_USED e) else max (s.get
      (R.MEM_STATUS_QUOTA_USED e)) (min (s.get (R.MEM_STATUS_QUOTA_USED e) + stalled.val) (s.get (R.MEM_CTRL_STALL_QUOTA e)))) ∧
      Keeps (memoryTouches e) s t) ∧
    (∀ (e : Fin 8) (a : Agent), (s.reaches a = true ∨ s.reachesWindow a e = true) → ∃ t, exec (.ledgerAbort e a) s = .next t
      ∧ (t.ez e) = { s.ez e with aborts := if (s.ez e).aborts.contains s.age then (s.ez e).aborts else (s.ez e).aborts ++ [s.age] } ∧ Keeps (touches [] [] [e]) s t ∧ (s.run e =
      false → s.Predictable → ((t.elapse 500).ez e).ledger.all (fun x =>
      x.st != .pending) = true)) ∧
    (∀ (a : Agent) (v : BitVec 32) (e : Fin 8) (x : LEntry), s.reaches a = true → v &&& ~~~0x70FFF#32 = 0 → v.toNat / 2 ^ 16
      % 8 = e.val → (s.ez e).ledger[(v.toNat % 4096 + 4096 - (s.ez e).ret.toNat % 4096) % 4096]? = some x → ∃ t, exec
      (.ldgSelWrite a v) s = .next t ∧ (∀ k : Fin 10, x.err[k] ≠ .double → t.get (R.LDG_DATA_DATA (2 * k.val)) + 2 ^ 32 * t.get (R.LDG_DATA_DATA (2 * k.val + 1)) = ((x.desc.toList ++ [x.lm0, x.lm1]).getD k.val 0).toNat) ∧ t.get R.LDG_SEL_ENTRY = v.toNat % 4096 ∧ t.get R.LDG_SEL_EASEL = e.val ∧
      Keeps { regs := fun r => within r 0x5000 0x51FF, easels := (· == e), parts := [.free] } s t)

/-- A request that is taken, on an easel not already in reset: IN_RESET is set and RUN is 0; every leg the easel owns has the
RESET cause with both pins low; its memories are vacant, its committed outputs 0, its queue empty; no pass, downbeat or
intake is left. The end of the reset: IN_RESET clears; every register of the window reads its reset value; every leg it
owns has both registers 0 and both pins low and still the RESET cause; the ledger keeps only pending transactions, without
reservations, or aborts them where ERST_POLICY says so, with RET at the former CMT; and EASEL_RESET_DONE is posted to the
easel. -/
def Obligations.EaselResetsChokeClearAndRenew : Prop :=
  ∀ (s : State) (e : Fin 8),
    (∀ (c : ResetCause), s.resetAllowed c = true → (s.ez e).reset = none → ∃ t, exec (.easelReset e c) s = .next t ∧ (t.ez
      e).reset = some c ∧ t.bit R.EASEL_RST_IN_RESET e.val = true ∧ t.run e = false ∧ (∀ l : Fin 64, s.ownerLeg l = some e →
      t.bit (R.LEG_STATUS_CAUSE l) causeReset = true ∧ t.flag (R.LEG_STATUS_CHOKED l) = true ∧ (t.leg l).gh = false ∧ (t.leg
      l).gl = false) ∧ (t.ez e).mem = [] ∧ (t.ez e).outs = [] ∧ (t.ez e).queue = [] ∧ (t.ez e).pass = none ∧ (t.ez e).gen =
      none ∧ (t.ez e).intake = .idle ∧ (t.ez e).ledger = (s.ez e).ledger) ∧
    ((s.ez e).reset.isSome = true → ∃ t, exec (.easelResetComplete e) s = .next t ∧ (t.ez e).reset = none ∧ t.bit
      R.EASEL_RST_IN_RESET e.val = false ∧ (∀ a : Nat, windowOf a = some e → t.raw a = BitVec.ofNat 32 (regReset a)) ∧ (∀ l :
      Fin 64, s.ownerLeg l = some e → (t.leg l).pending = 0 ∧ (t.leg l).active = 0 ∧ (t.leg l).gh = false ∧ (t.leg l).gl =
      false ∧ t.bit (R.LEG_STATUS_CAUSE l) causeReset = s.bit (R.LEG_STATUS_CAUSE l) causeReset) ∧ (t.ez e).ledger = (s.ez
      e).ledgerKept (s.flag (R.LDG_CTRL_ERST_POLICY e)) ∧ (t.ez e).ret = (s.ez e).cmt ∧ (t.ez e).mem = [] ∧
      (s.f0.entries.length < 31 → Staged t.f0 0x32 s.time) ∧ Staged (t.ez e).evt 0x32 s.time)

/-- For an agent that may write the OWN group, an owner register, a value without reserved bits, no later agent's write in the
same coarse tick, and no running easel among the old and new owners of a changed field: the register takes the value. A leg
whose field changes has both duty registers 0, the RESET cause, both pins low, and the UNASSIGNED cause exactly where its
new field has ASSIGNED = 0; a leg of another field keeps its duty registers. -/
def Obligations.OwnerWritesMoveAndChokeLegs : Prop :=
  ∀ (s : State) (a : Agent) (adr : BitVec 24) (v : BitVec 32), s.mayWrite a 2 = true → isOwnerReg adr.toNat = true → v.toNat
    ≤ ownerMask adr.toNat → s.overruled a adr.toNat = 0 → s.ownerClash adr.toNat (Cells.get 0 adr.toNat s.regs).toNat v.toNat
    = [] →
    (∃ t, exec (.ownerWrite a adr v) s = .next t ∧ Cells.get 0 adr.toNat t.regs = v ∧ (∀ l : Fin 64, (R.OWN_LEG l).addr =
      adr.toNat → (R.OWN_LEG l).read v ≠ s.get (R.OWN_LEG l) → (t.leg l).pending = 0 ∧ (t.leg l).active = 0 ∧ t.bit
      (R.LEG_STATUS_CAUSE l) causeReset = true ∧ t.bit (R.LEG_STATUS_CAUSE l) causeUnassigned = decide ((R.OWN_LEG l).read v
      < 8) ∧ (t.leg l).gh = false ∧ (t.leg l).gl = false) ∧ (∀ l : Fin 64, ((R.OWN_LEG l).addr ≠ adr.toNat ∨ (R.OWN_LEG
      l).read v = s.get (R.OWN_LEG l)) → (t.leg l).pending = (s.leg l).pending ∧ (t.leg l).active = (s.leg l).active))

/-- With a region under test and the sub-bank's share not done: up to its last RESTORE, an access that finds no defect counts one
more access and leaves every operand of every easel reading as before. A march read that finds a defect parks the region:
PARKED and FAIL are set, BUSY clears, the address of the word is recorded, and BTEST_FAIL is posted where staging has room.
RESUME of a parked test clears PARKED and goes on at the next region, after region 2,047 at region 0 with one more sweep counted, or at
START where EN was set while it was parked (the model's choice, log entry 98). -/
def Obligations.TheTransparentTestIsTransparent : Prop :=
  ∀ (s : State) (e : Fin 8),
    (∀ (sub : Fin 16), s.testBusy e = true → (s.ez e).btest.steps[sub] < 48 → ∃ t, exec (.btestAccess e sub 0) s = .next t ∧
      (t.ez e).btest.steps[sub] = (s.ez e).btest.steps[sub] + 1 ∧ (∀ (f : Fin 8) (a : Nat), (t.readMem f a).1 = (s.readMem f
      a).1)) ∧
    (∀ (sub : Fin 16) (d : BitVec 48) (j : Nat), s.testBusy e = true → testAccess (s.ez e).btest.steps[sub] = .marchRead j →
      (s.ez e).btest.steps[sub] < 44 → d ≠ 0 → (s.ez e).btest.next < 2048 → ∃ t, exec (.btestAccess e sub d) s = .next t ∧
      t.flag (R.BTEST_STATUS_PARKED e) = true ∧ t.flag (R.BTEST_STATUS_FAIL e) = true ∧ t.testBusy e = false ∧ t.get
      (R.BTEST_FAIL_ADDR e) = (64 * (s.ez e).btest.next + 16 * j + sub.val) % 131072 ∧ ((s.ez e).evt.entries.length < 32 →
      Staged (t.ez e).evt 0x31 s.time)) ∧
    (∀ (a : Agent), s.reachesWindow a e = true → s.flag (R.BTEST_STATUS_PARKED e) = true → ∃ t, exec (.btestResume e a) s =
      .next t ∧ t.flag (R.BTEST_STATUS_PARKED e) = false ∧ (t.ez e).btest =
      { (s.ez e).btest with next := (s.ez e).btest.restart.getD (if (s.ez e).btest.next = 2047 then 0 else (s.ez e).btest.next + 1), restart := none } ∧
      t.get (R.BTEST_SWEEPS_SWEEPS e) = (s.get (R.BTEST_SWEEPS_SWEEPS e) + (if (s.ez e).btest.next = 2047 then 1 else 0)) % 2 ^ (R.BTEST_SWEEPS_SWEEPS e).width ∧ Keeps (touches
      [(R.BTEST_STATUS_PARKED e).addr, (R.BTEST_SWEEPS_SWEEPS e).addr] [] [e]) s t)

/-- For an agent that reaches the window with RUN 0, PRELOAD takes the value written, and nothing else changes; with RUN 1 the
write is ignored. With preload points active, at the next TIME48 multiple of 10.24 µs at which they still are, an easel
with a grant window and no intake in progress has its doorbell read outstanding, unless it is in HRD or HRD_DONE, where none is
issued; DB_COUNT, the generator and the pass stay as they are at that instant. -/
def Obligations.PreloadPointsFetchWhileStopped : Prop :=
  ∀ (s : State) (e : Fin 8),
    (∀ (a : Agent) (on : Bool), s.reachesWindow a e = true → s.run e = false → ∃ t, exec (.preload e a on) s = .next t ∧
      t.flag (R.BRING_CTRL_PRELOAD e) = on ∧ Keeps (touches [(R.BRING_CTRL_PRELOAD e).addr]) s t) ∧
    (∀ (a : Agent) (on : Bool), s.run e = true → ∃ t, exec (.preload e a on) s = .next t ∧ t = s) ∧
    (∀ (u : State), s.preloadActive e = true → u = s.reachMultiple 128000 → u.preloadActive e = true →
      ∃ t, exec (.preloadPoint e) s = .next t ∧ (u.grantLog2 e ≠ 0 → (u.ez e).intake = .idle → u.inHrd e = false →
        (t.ez e).intake = .doorbell true ∧ t.outbox.getLast? = some (.read (u.hcb e 0) 32)) ∧
      (u.inHrd e = true → (t.ez e).intake = (u.ez e).intake) ∧
      (t.ez e).dbCount = (u.ez e).dbCount ∧ (t.ez e).gen = (u.ez e).gen ∧ (t.ez e).pass = (u.ez e).pass ∧ t.time = u.time)

/-- At the next update position (reached first) the active register takes the pending value, or the one before it where the
commit lies less than 40 ns back, and X is the drive signal of that instant. At an edge of the drive signal, due now or the
next bound of the high interval, X takes its value; on a leg that is not choked, in the complementary mode, a pin stays
high only on the side of X. Where X holds long enough, the pins of a complementary leg take X and its complement, no
earlier than the dead time and the interlock of 25 fine ticks ask, unless the leg has been choked meanwhile. A choked leg without a
cause is released at the first START at least 40 ns after the last cause cleared, unless a cause has come meanwhile, and its
interlock counts from there. Choked legs keep their pins through the first two. -/
def Obligations.LegsFollowTheirCarrierAndDeadTime : Prop :=
  ∀ (s : State) (l : Fin 64),
    (∃ t, exec (.updatePosition l) s = .next t ∧ (t.leg l).active = (s.reachAge (s.updateAt l (s.updateFrom l))).updateValue
      l ∧ (t.leg l).lastUpd = some t.age ∧ t.age = (s.reachAge (s.updateAt l (s.updateFrom l))).age ∧ t.flag (R.LEG_STATUS_X
      l) = t.drive l t.time ∧ ((s.reachAge (s.updateAt l (s.updateFrom l))).flag (R.LEG_STATUS_CHOKED l) = true → (t.leg
      l).gh = ((s.reachAge (s.updateAt l (s.updateFrom l))).leg l).gh ∧ (t.leg l).gl = ((s.reachAge (s.updateAt l
      (s.updateFrom l))).leg l).gl)) ∧
    (s.drive l s.time ≠ s.flag (R.LEG_STATUS_X l) → ∃ t, exec (.driveEdge l) s = .next t ∧ t.flag (R.LEG_STATUS_X l) =
      t.drive l t.time ∧ t.age = s.age ∧ (s.flag (R.LEG_STATUS_CHOKED l) = true → (t.leg l).gh = (s.leg l).gh ∧ (t.leg l).gl
      = (s.leg l).gl) ∧ (s.flag (R.LEG_STATUS_CHOKED l) = false → s.get (R.LEG_CFG_OUT l) = 0 → (t.leg l).gh = ((s.leg l).gh
      && t.flag (R.LEG_STATUS_X l)) ∧ (t.leg l).gl = ((s.leg l).gl && !t.flag (R.LEG_STATUS_X l)))) ∧
    (∀ (at_ : Nat), s.drive l s.time = s.flag (R.LEG_STATUS_X l) → s.edgeAt l = some at_ → ∃ t, exec (.driveEdge l) s = .next
      t ∧ t.flag (R.LEG_STATUS_X l) = t.drive l t.time ∧ t.age = at_) ∧
    (∀ (u : State), s.flag (R.LEG_STATUS_CHOKED l) = false → s.drive l s.time = s.flag (R.LEG_STATUS_X l) →
      ((s.edgeAt l).all fun e => decide ((s.pinsDue l).2.2 ≤ s.age) || decide ((s.pinsDue l).2.2 < e)) = true →
      u = s.reachAge (s.pinsDue l).2.2 → ∃ t, exec (.deadTimeElapsed l) s = .next t ∧ t.age = max s.age (s.pinsDue l).2.2 ∧
      (u.flag (R.LEG_STATUS_CHOKED l) = true → t = u) ∧
      (u.flag (R.LEG_STATUS_CHOKED l) = false → (t.leg l).gh = (s.pinsDue l).1 ∧ (t.leg l).gl = (s.pinsDue l).2.1 ∧
        Keeps (touches [] [.comparators] [] [l]) u t) ∧
      (u.flag (R.LEG_STATUS_CHOKED l) = false → s.get (R.LEG_CFG_OUT l) = 0 → (t.leg l).gh = s.flag (R.LEG_STATUS_X l) ∧
        (t.leg l).gl = !s.flag (R.LEG_STATUS_X l) ∧ (s.leg l).lowSince + 25 ≤ t.age ∧
        (s.leg l).xSince + max 25 (if s.flag (R.LEG_STATUS_X l) then s.get (R.LEG_DT_DTH l) else s.get (R.LEG_DT_DTL l)) ≤ t.age)) ∧
    (∀ (at_ : Nat) (u : State), (s.leg l).clearedAt = some at_ → s.get (R.LEG_STATUS_CAUSE l) = 0 →
      s.flag (R.LEG_STATUS_CHOKED l) = true → u = s.reachAge (s.posAt l 0 (max s.age (at_ + 500))) →
      ∃ t, exec (.legRelease l) s = .next t ∧ t.age = s.posAt l 0 (max s.age (at_ + 500)) ∧ at_ + 500 ≤ t.age ∧
      (u.legFree l = false → t = u) ∧
      (u.legFree l = true → t.flag (R.LEG_STATUS_CHOKED l) = false ∧ (t.leg l).lowSince = t.age ∧ (t.leg l).xSince = t.age ∧
        (t.leg l).clearedAt = none ∧ (t.leg l).gh = (u.leg l).gh ∧ (t.leg l).gl = (u.leg l).gl ∧
        Keeps (touches [(R.LEG_STATUS_CAUSE l).addr] [] [] [l]) u t))

/-- With nothing in set-up in error, a FLT ball that is asserted activates every group its leg names; with FLT_SELF it gives
its own leg the FLT cause with both pins low. Deasserted, its FLT cause is clear at the next coarse tick. A new voltage on
the input of a comparator is taken by every comparator that watches it: a raw output of one whose DAC does not settle is set
above its threshold (or below), cleared past its hysteresis, and else stays; the others keep theirs. A side that then reads
1, with its asynchronous enable, activates every group it names: always without BLANK_ASYNC; with BLANK_ASYNC on a
comparator that alone watches the input, outside its blanking window, and for the lower side with the upper one at 0 (a pin
that falls may open a window first); inside its window it activates none. A write of FORCE = 1 that reaches activates its
group; FORCE = 0 changes that bit alone; one that does not reach changes nothing. A group that becomes active sets HIT,
counts in HIT_CNT with its stop, and gives each of its legs the GROUP cause with both pins low. Nothing else changes but
blanking windows and free values. -/
def Obligations.FaultsAndComparatorsChoke : Prop :=
  ∀ (s : State),
    (∀ (l : Fin 64), ∃ t, exec (.fltAssert l) s = .next t ∧ t.flag (R.LEG_STATUS_FLT_IN l) = true ∧
      (s.unpredRegs = [] → GroupsOn s t (s.get (R.LEG_FLT_FLT_GRP l)) ∧ (s.flag (R.LEG_FLT_FLT_SELF l) = true →
        s.bit (R.LEG_STATUS_CAUSE l) causeFlt = false → t.bit (R.LEG_STATUS_CAUSE l) causeFlt = true ∧ t.dark l)) ∧
      Keeps (s.groupTouches (s.get (R.LEG_FLT_FLT_GRP l)) [l]) s t) ∧
    (∀ (l : Fin 64) (u : State), u = (s.setFlag (R.LEG_STATUS_FLT_IN l) false).reachCoarse → ∃ t, exec (.fltDeassert l) s =
      .next t ∧ t.age = u.age ∧ t.flag (R.LEG_STATUS_FLT_IN l) = false ∧ t.bit (R.LEG_STATUS_CAUSE l) causeFlt = false ∧
      (t.leg l).gh = (u.leg l).gh ∧ (t.leg l).gl = (u.leg l).gl ∧
      Keeps (touches [(R.LEG_STATUS_CAUSE l).addr] [] [] [l]) u t) ∧
    (∀ (c : Fin 64) (v : Int) (i : Fin 48), i = Fin.ofNat 48 (s.get (R.CMP_CFG_AIN c)) →
      ∃ t, exec (.comparatorCrossing c v) s = .next t ∧ t.ain[i] = v ∧ (∀ k : Fin 48, k ≠ i → t.ain[k] = s.ain[k]) ∧
      (∀ d ∈ s.watchers i, s.settling d = false → ∀ (up lo h : Int), up = s.threshold d (s.get (R.CMP_THR_UPPER d)) →
        lo = s.threshold d (s.get (R.CMP_THR_LOWER d)) → h = s.hysOf d →
        t.flag (R.CMP_STATUS_RAW_ABOVE d) =
          (decide (up < v) || (s.flag (R.CMP_STATUS_RAW_ABOVE d) && !decide (v < up - h))) ∧
        t.flag (R.CMP_STATUS_RAW_BELOW d) =
          (decide (v < lo) || (s.flag (R.CMP_STATUS_RAW_BELOW d) && !decide (lo + h < v)))) ∧
      (s.unpredRegs = [] → ∀ d ∈ s.watchers i,
        (t.flag (R.CMP_STATUS_RAW_ABOVE d) = true → s.flag (R.CMP_CFG_ASYNC_UP d) = true →
          (s.flag (R.CMP_CFG_BLANK_ASYNC d) = false ∨ (s.blanked d = false ∧ s.watchers i = [d])) →
          GroupsOn s t (s.get (R.CMP_GRP_GRP_UP d))) ∧
        (t.flag (R.CMP_STATUS_RAW_BELOW d) = true → s.flag (R.CMP_CFG_ASYNC_DN d) = true →
          (s.flag (R.CMP_CFG_BLANK_ASYNC d) = false ∨ (s.blanked d = false ∧ s.watchers i = [d] ∧
            t.flag (R.CMP_STATUS_RAW_ABOVE d) = false)) → GroupsOn s t (s.get (R.CMP_GRP_GRP_DN d)))) ∧
      ((∀ d ∈ s.watchers i, s.flag (R.CMP_CFG_BLANK_ASYNC d) = true ∧ s.blanked d = true) →
        (∀ g : Fin 16, t.groupActive g = s.groupActive g) ∧ t.groups = s.groups ∧ t.legs = s.legs) ∧
      Keeps (s.inputTouches i) s t) ∧
    (∀ (g : Fin 16) (a : Agent), s.reaches a = true → ∃ t, exec (.cgForce g a true) s = .next t ∧ t.flag (R.CG_CTRL_FORCE g)
      = true ∧ GroupsOn s t (2 ^ g.val) ∧ Keeps (s.groupTouches (2 ^ g.val) []) s t) ∧
    (∀ (g : Fin 16) (a : Agent), s.reaches a = true → ∃ t, exec (.cgForce g a false) s = .next t ∧ t.flag (R.CG_CTRL_FORCE g)
      = false ∧ Keeps (touches [(R.CG_CTRL_FORCE g).addr]) s t) ∧
    (∀ (g : Fin 16) (a : Agent) (on : Bool), s.reaches a = false → exec (.cgForce g a on) s = .next s)

/-- At a coarse tick (reached first) at which an active CYCLE group is neither forced nor held by a source, it ends its
activity; at one at which it is held it goes on. An active LATCH group, neither forced nor held, and not named by a CHOKE
action of the coarse tick, ends its activity at a write of CLR that reaches. It is then not active, no source is kept for
it, and the GROUP cause of each of its legs that no other active group holds is clear; only the group and its legs change. A
group that a source, FORCE or such an action holds, one that is not active, and a CYCLE group, take no effect from CLR. -/
def Obligations.ChokeGroupsEndByTheirMode : Prop :=
  ∀ (s : State) (g : Fin 16),
    (∀ (u : State), s.groupActive g = true → s.flag (R.CG_CTRL_GMODE g) = false → u = s.reachCoarse →
      ∃ t, exec (.chokeGroupRelease g) s = .next t ∧ (s.sup.inReset = false → s.fine < 125 → t.fine = 0) ∧
      (u.groupActive g = true → u.groupHeld g = false → GroupOff u t g ∧ Keeps (u.groupTouches (2 ^ g.val) []) u t) ∧
      (u.groupHeld g = true → t = u)) ∧
    (∀ (a : Agent), s.reaches a = true → s.groupActive g = true → s.flag (R.CG_CTRL_GMODE g) = true → s.groupHeld g = false →
      s.chokedNow g = false → ∃ t, exec (.cgClr g a) s = .next t ∧ GroupOff s t g ∧
      Keeps (s.groupTouches (2 ^ g.val) []) s t) ∧
    (∀ (a : Agent), (s.reaches a = false ∨ s.groupActive g = false ∨ s.flag (R.CG_CTRL_GMODE g) = false ∨
      s.groupHeld g = true ∨ s.chokedNow g = true) → exec (.cgClr g a) s = .next s)

/-- At the coarse tick (reached first): each comparator takes its raw outputs, 0 while blanked, into its last nine samples;
idle, its outputs read 0; while its DAC settles they stay; else they are the majority that FILT asks. The router remembers
what its sources read, with no pulse left, and every enabled route with an action 1 to 5, not itself in error, whose source
reads 1, and read 0 before or was rewritten, is among those that have fired, with this instant. A window's end shows the
asynchronous path the raw outputs again: with nothing in set-up in error, a side that reads 1 activates its groups, the
lower one where the upper one does not act before it or BLANK_ASYNC is 0. A DAC that has settled clears SETTLING, and the
raw outputs follow its thresholds. -/
def Obligations.ComparatorsAndRouterSampleAtTheTick : Prop :=
  ∀ (s : State),
    (∀ (u : State), u = s.atSample → ∃ t, exec (.comparatorSample) s = .next t ∧ (∀ c : Fin 64,
      t.cmps[c].above = ((!u.blanked c && u.flag (R.CMP_STATUS_RAW_ABOVE c)) :: u.cmps[c].above).take 9 ∧
      t.flag (R.CMP_STATUS_ABOVE c) = (if u.cmpIdle c then false else if u.settling c then u.flag (R.CMP_STATUS_ABOVE c)
        else filtered (u.get (R.CMP_CFG_FILT c)) t.cmps[c].above) ∧
      t.cmps[c].below = ((!u.blanked c && u.flag (R.CMP_STATUS_RAW_BELOW c)) :: u.cmps[c].below).take 9 ∧
      t.flag (R.CMP_STATUS_BELOW c) = (if u.cmpIdle c then false else if u.settling c then u.flag (R.CMP_STATUS_BELOW c)
        else filtered (u.get (R.CMP_CFG_FILT c)) t.cmps[c].below)) ∧
      t.router.pulses = 0 ∧ t.router.at_ = some u.age ∧ (∀ r : Fin 128, t.flag (R.ROUTE_EN r) = true →
        u.fails (0x8D00 + 4 * r.val) = false → 1 ≤ t.get (R.ROUTE_ACTION r) → t.get (R.ROUTE_ACTION r) ≤ 5 →
        t.router.prev.getLsbD (t.get (R.ROUTE_SRC r)) = true → (u.router.prev.getLsbD (t.get (R.ROUTE_SRC r)) = false ∨
        u.router.rewritten.getLsbD r.val = true) → (r, t.time) ∈ t.router.fired)) ∧
    (∀ (c : Fin 64) (at_ : Nat) (u : State), s.cmps[c].blank = some at_ → u = s.reachAge at_ →
      ∃ t, exec (.blankWindowEnd c) s = .next t ∧
      (u.unpredRegs = [] → u.flag (R.CMP_STATUS_RAW_ABOVE c) = true → u.flag (R.CMP_CFG_ASYNC_UP c) = true →
        GroupsOn u t (u.get (R.CMP_GRP_GRP_UP c))) ∧
      (u.unpredRegs = [] → u.flag (R.CMP_STATUS_RAW_BELOW c) = true → u.flag (R.CMP_CFG_ASYNC_DN c) = true →
        (u.flag (R.CMP_CFG_BLANK_ASYNC c) = false ∨ u.flag (R.CMP_STATUS_RAW_ABOVE c) = false ∨
          u.flag (R.CMP_CFG_ASYNC_UP c) = false) → GroupsOn u t (u.get (R.CMP_GRP_GRP_DN c))) ∧
      (u.flag (R.CMP_STATUS_RAW_ABOVE c) = false → u.flag (R.CMP_STATUS_RAW_BELOW c) = false →
        t.cmps[c].blank = none ∧ Keeps (touches [] [.comparators]) u t) ∧
      Keeps (u.groupTouches (u.get (R.CMP_GRP_GRP_UP c) ||| u.get (R.CMP_GRP_GRP_DN c)) []) u t) ∧
    (∀ (c : Fin 64) (at_ : Nat) (u : State), s.cmps[c].settle = some at_ →
      u = (s.reachAge at_).modCmp c (fun x => { x with settle := none }) → ∃ t, exec (.dacSettled c) s = .next t ∧
      t.flag (R.CMP_STATUS_SETTLING c) = false ∧ t.cmps[c].settle = none ∧ t.age = max s.age at_ ∧
      (∀ (up lo h : Int), up = u.threshold c (u.get (R.CMP_THR_UPPER c)) → lo = u.threshold c (u.get (R.CMP_THR_LOWER c)) →
        h = u.hysOf c → t.flag (R.CMP_STATUS_RAW_ABOVE c) =
          (decide (up < u.cmpInput c) || (u.flag (R.CMP_STATUS_RAW_ABOVE c) && !decide (u.cmpInput c < up - h))) ∧
        t.flag (R.CMP_STATUS_RAW_BELOW c) =
          (decide (u.cmpInput c < lo) || (u.flag (R.CMP_STATUS_RAW_BELOW c) && !decide (lo + h < u.cmpInput c)))))

/-- A command of a route that has fired, with the action of the command, lets the routes that fired before it in the order
of R253 act, and then its own; each acts at the tick after its fire (reached first), and is spent. Where it is the first:
CHOKE activates, with nothing in set-up in error, every group of its ARG, whose legs are choked; LATCH sets the bit of
RTR_LATCH of its easel that ARG names; POST posts its event to the easel's staging where that has room, stamped with the
tick of the fire (the timebase sources under their own codes); TRIGGER gives the pair's sequence a trigger at this instant
where the pair belongs to the easel and the sequence has SRC = ROUTER, and else does nothing; FORCE_LIMP notes a limp
request on the easel in its normal state, and else does nothing. -/
def Obligations.FiredRoutesActAtTheNextTick : Prop :=
  ∀ (s : State) (r : Fin 128) (x : Fin 128 × Time) (pre rest : List (Fin 128 × Time)) (v u : State) (d : Fin 8),
    s.router.fired = pre ++ x :: rest → (∀ y ∈ pre, y.1 ≠ r) → x.1 = r →
    v = { s with router := { s.router with fired := rest } } → u = v.reach (x.2 + 125) → d = u.routeEasel r →
    (∀ k ∈ [(1, Instr.choke r), (2, Instr.latch r), (3, Instr.post r), (4, Instr.trigger r), (5, Instr.routeForceLimp r)],
      s.get (R.ROUTE_ACTION r) = k.1 → exec k.2 s = .next ((pre ++ [x]).foldl State.routeAct v)) ∧
    (pre = [] → s.get (R.ROUTE_ACTION r) = 1 → u.get (R.ROUTE_ACTION r) = 1 → ∃ t, exec (.choke r) s = .next t ∧
      t.router.fired = rest ∧ (u.unpredRegs = [] → GroupsOn u t (u.get (R.ROUTE_ARG r))) ∧
      Keeps (u.groupTouches (u.get (R.ROUTE_ARG r)) []) u t) ∧
    (pre = [] → s.get (R.ROUTE_ACTION r) = 2 → u.get (R.ROUTE_ACTION r) = 2 → ∃ t, exec (.latch r) s = .next t ∧
      t.router.fired = rest ∧ t.bit (R.RTR_LATCH_LATCH d) (u.get (R.ROUTE_ARG r) % 32) = true ∧
      Keeps (touches [(R.RTR_LATCH_LATCH d).addr]) u t) ∧
    (pre = [] → s.get (R.ROUTE_ACTION r) = 3 → u.get (R.ROUTE_ACTION r) = 3 → ∃ t, exec (.post r) s = .next t ∧
      t.router.fired = rest ∧ ((u.ez d).evt.entries.length < 32 → Staged (t.ez d).evt (if u.get (R.ROUTE_SRC r) = 0xE0 then 0x20
        else if u.get (R.ROUTE_SRC r) = 0xE1 then 0x21 else if u.get (R.ROUTE_SRC r) = 0xE2 then 0x22 else 0x103) x.2) ∧
      Keeps (touches []) u t) ∧
    (∀ (p : Fin 8) (q : Fin 4), pre = [] → s.get (R.ROUTE_ACTION r) = 4 → u.get (R.ROUTE_ACTION r) = 4 →
      p.val = u.get (R.ROUTE_ARG r) / 4 % 8 → q.val = u.get (R.ROUTE_ARG r) % 4 → ∃ t, exec (.trigger r) s = .next t ∧
      t.router.fired = rest ∧ (u.pairOwner p = some d → u.get (R.ADC_SEQ_SRC p q) = 3 →
        t.adc[p] = { u.adc[p] with routed := u.adc[p].routed ++ [(q, u.age)] } ∧ Keeps (touches [] [.adc]) u t) ∧
      ((u.pairOwner p ≠ some d ∨ u.get (R.ADC_SEQ_SRC p q) ≠ 3) → t = u)) ∧
    (pre = [] → s.get (R.ROUTE_ACTION r) = 5 → u.get (R.ROUTE_ACTION r) = 5 → ∃ t, exec (.routeForceLimp r) s = .next t ∧
      t.router.fired = rest ∧ (u.limp d = 0 → t.ez d = { u.ez d with limpAt := some ((u.ez d).limpAt.getD u.age) } ∧
        Keeps (touches [] [] [d]) u t) ∧ (u.limp d ≠ 0 → t = u))

/-- Where something fires a sequence next (a downbeat, a carrier position, a ROUTER trigger), its trigger comes OFFSET after
that (reached first) and is taken; else the command does nothing. At that instant a disarmed sequence loses it. Of an armed
one, a sequence that runs or waits drops it: TRIG_DROP_CNT counts (modulo 2^32) and TRIG_DROPPED is posted; one with a lower
number than the sequence that started at this instant goes before it, and that one waits; else it waits on a busy converter,
and starts on a free one. The first waiting sequence starts when its converter is free, with DEFER where its trigger lies
before. A sequence that starts places LEN_M1 + 1 consecutive steps, the first conversion now, conversions 40 ns apart
(INTERLEAVE: 20 ns, and the skew of B). The oldest step of a converter lands at the coarse tick at or after 120 ns past its
last conversion, with a code for each conversion and in its turn among the results of that tick (else the command does
nothing): with room in the queue it is entered with TAG, FLAGS, its stamp and VAL, the sum of the calibrated codes rounded
at SHIFT, and FILL rises; a full queue keeps its entries and sets QOVR. The oldest pod sample received lands 40 ns later, in
its turn, and enters the queue of a running easel that takes all samples of its channel, or picks this one. CAL is accepted
with every sequence disabled and no calibration busy; its end leaves CAL_A and CAL_B as found, or CAL_OK 0 and both as they
were, and posts CAL_DONE; other CALs and ends do nothing. -/
def Obligations.ConversionsStartAndLandInTheirOrder : Prop :=
  ∀ (s : State),
    (∀ (p : Fin 8) (q : Fin 4), s.nextTrigger p q = none → exec (.adcTrigger p q) s = .next s) ∧
    (∀ (p : Fin 8) (q : Fin 4) (base : Nat) (v u : State), s.nextTrigger p q = some base →
      v = s.reachAge (base + s.get (R.ADC_TOFS_OFFSET p q)) → u = v.triggerTaken p q base → ∃ t, exec (.adcTrigger p q) s = .next t ∧
      (v.get (R.ADC_SEQ_SRC p q) = 3 → (t.pair p).routed = (v.pair p).routed.erase (q, base)) ∧
      (v.get (R.ADC_SEQ_SRC p q) ≠ 3 → (t.pair p).fired[q] = some base) ∧
      (u.seqArmed p q = false → t = u ∧ Keeps (touches [] [.adc]) v t) ∧
      (∀ e : Fin 8, u.pairOwner p = some e → u.seqArmed p q = true →
        TriggerServed u t p ⟨q, u.age, false, false⟩ e)) ∧
    (∀ (p : Fin 8) (c : Fin 2), (s.conv p c).pend = [] → exec (.sequenceStart p c) s = .next s) ∧
    (∀ (p : Fin 8) (c : Fin 2) (x : AdcPend) (rest : List AdcPend) (u : State), (s.conv p c).pend = x :: rest →
      (∀ y tm, (s.conv p c).run = some (y, tm) → u = s.reachAge tm) → ((s.conv p c).run = none → u = s) →
      ∃ t, exec (.sequenceStart p c) s = .next t ∧ (t.conv p c).pend = rest ∧
      (u.convOf p x.seq = c → SequenceStarts u t p x (u.conv p c).lands) ∧ Keeps (touches [] [.adc]) u t) ∧
    (∀ (p : Fin 8) (c : Fin 2) (codes : List (BitVec 14)), (s.conv p c).lands = [] ∨ (∃ x rest, (s.conv p c).lands = x :: rest ∧
      (codes.length ≠ (R.STEP_AVG_M1 0 0).read x.cfg + 1 ∨
        s.landTurn (s.pairOwner p) (s.coarseAt (x.last + 1500)) (2 * p.val + c.val) = false)) →
      exec (.adcStepLand p c codes) s = .next s) ∧
    (∀ (p : Fin 8) (c : Fin 2) (codes : List (BitVec 14)) (x : AdcLand) (rest : List AdcLand) (u : State)
      (val : Fin 2 → BitVec 14 → Int), (s.conv p c).lands = x :: rest → codes.length = (R.STEP_AVG_M1 0 0).read x.cfg + 1 →
      s.landTurn (s.pairOwner p) (s.coarseAt (x.last + 1500)) (2 * p.val + c.val) = true →
      u = s.reachAge (s.coarseAt (x.last + 1500)) →
      (∀ k, val 0 k = roundDiv ((4 * (k.toNat : Int) - (BitVec.ofNat 16 (u.get (R.CAL_A_OFS p))).toInt) *
        u.get (R.CAL_A_GAIN p)) 16384) →
      (∀ k, val 1 k = roundDiv ((4 * (k.toNat : Int) - (BitVec.ofNat 16 (u.get (R.CAL_B_OFS p))).toInt) *
        u.get (R.CAL_B_GAIN p)) 16384) →
      ∃ t, exec (.adcStepLand p c codes) s = .next t ∧ (t.conv p c).lands = rest ∧ t.age = u.age ∧
      (u.pairOwner p = none → Keeps (touches [] [.adc]) u t) ∧
      (∀ e : Fin 8, u.pairOwner p = some e →
        ((u.ez e).queue.length < 128 → t.get (R.Q_STATUS_FILL e) = (u.ez e).queue.length + 1 ∧
          ∃ y, (t.ez e).queue = (u.ez e).queue ++ [y] ∧
          y.tag = BitVec.ofNat 16 (p.val * 2048 + x.seq.val * 512 + x.step * 16) ∧
          y.ts = stamp (u.timeAt (x.first + (x.last - x.first) / 2)) ∧
          y.val = BitVec.ofInt 40 (roundDiv ((codes.zipIdx.map fun k =>
            val (if x.inter && k.2 % 2 == 1 then 1 - c else c) k.1).foldl (· + ·) 0) (2 ^ (R.STEP_SHIFT p x.step).read x.cfg)) ∧
          (x.ground = true → y.flags = 1) ∧
          (x.ground = false → y.flags.getLsbD 0 = u.ranLow x ∧
            y.flags.getLsbD 1 = codes.any (fun k => k == 0 || k == 16383) ∧ y.flags.getLsbD 2 = x.defer ∧
            y.flags.getLsbD 3 = x.coast)) ∧
        (¬ (u.ez e).queue.length < 128 → (t.ez e).queue = (u.ez e).queue ∧ t.flag (R.Q_STATUS_QOVR e) = true) ∧
        ((R.STEP_SMP 0 0).read x.cfg = 0 → (R.STEP_MTR 0 0).read x.cfg = 0 → (u.ez e).pass = none →
          Keeps (touches [(R.Q_STATUS_FILL e).addr, (R.Q_PEAK_PEAK e).addr, (R.QOVR_CNT_COUNT e).addr] [.adc] [e]) u t))) ∧
    (∀ (p : Fin 16), (s.link p).landing = [] ∨ (∃ x rest, (s.link p).landing = x :: rest ∧ s.landTurn
      (s.owner (R.OWN_PODCH (podCh p x.ch))) (s.coarseAt (x.at_ + 500)) (16 + (podCh p x.ch).val) = false) →
      exec (.podSampleLand p) s = .next s) ∧
    (∀ (p : Fin 16) (x : PodLand) (rest : List PodLand) (u : State) (ch : Fin 64), (s.link p).landing = x :: rest →
      ch = podCh p x.ch → s.landTurn (s.owner (R.OWN_PODCH ch)) (s.coarseAt (x.at_ + 500)) (16 + ch.val) = true →
      u = s.reachAge (s.coarseAt (x.at_ + 500)) → ∃ t, exec (.podSampleLand p) s = .next t ∧ (t.link p).landing = rest ∧
      t.age = u.age ∧
      (u.flag (R.POD_MRG_EN ch) = false → (∀ k ∈ u.mtr.kept, k.1 ≠ ch) → Keeps (touches [] [.links]) u t) ∧
      (∀ e : Fin 8, u.owner (R.OWN_PODCH ch) = some e → u.flag (R.POD_MRG_EN ch) = true →
        ((u.flag (R.POD_MRG_PICK ch) = false ∨ u.pickOk e ch = true) → u.run e = true → (u.ez e).queue.length < 128 →
          ∃ y, (t.ez e).queue = (u.ez e).queue ++ [y] ∧ y.tag = BitVec.ofNat 16 (0x4000 + 256 * ch.val) ∧
          y.val = x.value.signExtend 40 ∧ y.ts = stamp (u.time - BitVec.ofNat 48 (u.get (R.POD_PGD_PGD ch))) ∧
          y.flags = BitVec.ofNat 8 ((if 2 ≤ x.podq.toNat then 1 else 0) + 16 * x.podq.toNat)) ∧
        (u.run e = false ∨ (u.flag (R.POD_MRG_PICK ch) = true ∧ u.pickOk e ch = false) → (t.ez e).queue = (u.ez e).queue))) ∧
    (∀ (p : Fin 8) (a : Agent), (s.reachesOwned a (s.pairOwner p) = true ∧ s.get (R.ADC_PCTRL_SEQ_EN p) = 0 ∧
      s.flag (R.ADC_PCTRL_CAL_BUSY p) = false → ∃ t, exec (.cal p a) s = .next t ∧ t.flag (R.ADC_PCTRL_CAL_BUSY p) = true ∧
        t.get (R.ADC_PCTRL_SEQ_EN p) = 0 ∧ t.inter p = s.inter p ∧ Keeps (touches [(R.ADC_PCTRL_CAL_BUSY p).addr]) s t) ∧
      (s.reachesOwned a (s.pairOwner p) = false ∨ s.get (R.ADC_PCTRL_SEQ_EN p) ≠ 0 ∨ s.flag (R.ADC_PCTRL_CAL_BUSY p) = true →
        exec (.cal p a) s = .next s)) ∧
    (∀ (p : Fin 8) (x : Option (BitVec 32 × BitVec 32)), (s.flag (R.ADC_PCTRL_CAL_BUSY p) = false →
      exec (.calDone p x) s = .next s) ∧ (s.flag (R.ADC_PCTRL_CAL_BUSY p) = true → ∃ t, exec (.calDone p x) s = .next t ∧
      t.flag (R.ADC_PCTRL_CAL_BUSY p) = false ∧ t.flag (R.ADC_PCTRL_CAL_OK p) = x.isSome ∧
      (∀ a b, x = some (a, b) → t.get (R.CAL_A_OFS p) = (R.CAL_A_OFS p).read a ∧ t.get (R.CAL_A_GAIN p) = (R.CAL_A_GAIN p).read a ∧
        t.get (R.CAL_B_OFS p) = (R.CAL_B_OFS p).read b ∧ t.get (R.CAL_B_GAIN p) = (R.CAL_B_GAIN p).read b) ∧
      (x = none → t.word (R.CAL_A_OFS p) = s.word (R.CAL_A_OFS p) ∧ t.word (R.CAL_B_OFS p) = s.word (R.CAL_B_OFS p)) ∧
      (∀ e : Fin 8, s.pairOwner p = some e → (s.ez e).evt.entries.length < 32 → Staged (t.ez e).evt 0x202 s.time) ∧
      Keeps (touches [(R.ADC_PCTRL_CAL_BUSY p).addr, (R.CAL_A_OFS p).addr, (R.CAL_B_OFS p).addr]) s t))

/-- A pod that is charged and locked takes a frame with a good check; it ignores any other. ALIGN places its channel's next
output, ECHO, WRITE and READ bring their answers, a WRITE changes the writable bits of its register (ALARM: clears bits; a
channel that it enables starts unaligned), RESET brings reset values, HELLO and the alarm bits whose conditions persist. An
output on a pod above its measure level, its channel on and its load not cut, takes the next place of its period and waits
as a sample word if the pod is lit, counting in UPL_DROP (to 0xFFFF) the one it replaces; its value past the threshold
raises the channel's alarm bit. At an uplink bit boundary a STATUS 64 µs overdue goes first, then ALARM words, then the
sample word of the lowest channel with its PODQ, then a control word that ends before the next output of each channel (or
past the one after it); nothing else starts. STATUS falls due 64 µs after the last. PG up: reset values, HELLO; PG down: all
is lost. The measure level falling raises alarm bit 4; rising, it leaves outputs on their grid (the model's reading, log
entry 107). Loss of carrier darkens the pod, unlocked and unaligned; DARK_T later, once, it cuts its load, or draws from ALT
where its mode says so and ALT is there, else raises alarm bit 6 and cuts its load. Phase lock ends darkness; STATUS waits
unless HELLO does. ALT is let go 64 µs after lock. Alarm bits are raised, each new enabled one with a word while locked; bit
6 while it draws from ALT ends that, in darkness with the load cut. A burst comes 2 µs into darkness and 1 ms after the
last. Otherwise each of these does nothing. Other pods and the device keep their state. -/
def Obligations.PodsKeepTheirOwnState : Prop :=
  ∀ (s : State) (p : Fin 16),
    (∀ (frame : BitVec 40), (s.takesFrame p frame 3 = false ∨ 4 ≤ frameAddr frame → exec (.align p frame) s = .next s) ∧
      (s.takesFrame p frame 4 = false → exec (.echo p frame) s = .next s) ∧
      (s.takesFrame p frame 1 = false → exec (.downlinkWrite p frame) s = .next s) ∧
      (∀ live, s.takesFrame p frame 2 = false → exec (.downlinkRead p frame live) s = .next s) ∧
      (∀ still, s.takesFrame p frame 5 = false ∨ frameAddr frame ≠ 0 ∨ frameData frame ≠ 0 →
        exec (.downlinkReset p frame still) s = .next s)) ∧
    (∀ (frame : BitVec 40) (c : Fin 4), s.takesFrame p frame 3 = true → frameAddr frame = c.val → ∃ t,
      exec (.align p frame) s = .next t ∧ (t.pod p).ch[c] = { (s.pod p).ch[c] with
        aligned := some s.age, next := some (if frameData frame = 0 then s.age
          else s.gridAt 500 (s.age + 1) + 500 * ((frameData frame).toNat - 1)) } ∧
      (∀ d : Fin 4, d ≠ c → (t.pod p).ch[d] = (s.pod p).ch[d]) ∧ (∀ a, (t.pod p).reg a = (s.pod p).reg a) ∧ PodOnly s t p) ∧
    (∀ (frame : BitVec 40), s.takesFrame p frame 4 = true → ∃ t, exec (.echo p frame) s = .next t ∧ t.pod p =
      { (s.pod p) with waiting := (s.pod p).waiting ++ [.echoRsp (frameSeq frame)] } ∧ PodOnly s t p) ∧
    (∀ (frame : BitVec 40), s.takesFrame p frame 1 = true → ∃ t, exec (.downlinkWrite p frame) s = .next t ∧
      (t.pod p).waiting = (s.pod p).waiting ++ [.writeAck (frameSeq frame)] ∧
      (∀ a, a ≠ frameAddr frame → (t.pod p).reg a = (s.pod p).reg a) ∧
      (t.pod p).reg (frameAddr frame) = (if frameAddr frame = 5 then (s.pod p).reg 5 &&& ~~~frameData frame
        else if podMask (frameAddr frame) = 0 then (s.pod p).reg (frameAddr frame)
        else frameData frame &&& podMask (frameAddr frame)) ∧
      (∀ c : Fin 4, (t.pod p).ch[c] = if frameAddr frame = 0x10 + 4 * c.val ∧ (s.pod p).reg (0x10 + 4 * c.val) = 0 ∧
        (frameData frame).getLsbD 0 = true then {} else (s.pod p).ch[c]) ∧ PodOnly s t p) ∧
    (∀ (frame : BitVec 40) (live : PodLive), s.takesFrame p frame 2 = true → ∃ t, exec (.downlinkRead p frame live) s = .next t ∧
      t.pod p = { (s.pod p) with
        waiting := (s.pod p).waiting ++ [.readRsp (frameSeq frame) ((s.pod p).read live (frameAddr frame))] } ∧ PodOnly s t p) ∧
    (∀ (frame : BitVec 40) (still : BitVec 8), s.takesFrame p frame 5 = true → frameAddr frame = 0 → frameData frame = 0 → ∃ t,
      exec (.downlinkReset p frame still) s = .next t ∧ (t.pod p).waiting = [.hello] ∧ (t.pod p).word = none ∧
      (t.pod p).alarmWords = 0 ∧ (∀ a, a ≠ 5 → (t.pod p).reg a = podReset a) ∧
      (t.pod p).reg 5 = (if (s.pod p).meas then 0 else 0x10) ||| (still &&& 0xEF).setWidth 16 ∧
      (∀ c : Fin 4, (t.pod p).ch[c] = {}) ∧ PodOnly s t p) ∧
    (∀ (c : Fin 4) (value : BitVec 24) (overload r : Bool) (u : State),
      (∀ n, (s.pod p).ch[c].next = some n → u = s.reachAge n) → ((s.pod p).ch[c].next = none → u = s) →
      ((s.pod p).ch[c].aligned = none → r = true) →
      (∀ a, (s.pod p).ch[c].aligned = some a → r = decide (u.age < max a (s.pod p).measAt + 1500 * ((s.pod p).chM c - 1))) →
      ((s.pod p).pg = false ∨ (s.pod p).meas = false ∨ (s.pod p).chOn c = false ∨ (s.pod p).loadCut = true →
        exec (.podOutput p c value overload) s = .next s) ∧
      ((s.pod p).pg = true → (s.pod p).meas = true → (s.pod p).chOn c = true → (s.pod p).loadCut = false → ∃ t,
        exec (.podOutput p c value overload) s = .next t ∧
        (∀ n, (s.pod p).ch[c].next = some n → (t.pod p).ch[c].next = some (n + (s.pod p).chPeriod c)) ∧
        (t.pod p).ch[c].waiting = (if (s.pod p).dark = none then some ⟨value, u.age, overload, r⟩
          else (s.pod p).ch[c].waiting) ∧
        (t.pod p).reg 0x09 = (if (s.pod p).dark = none ∧ (s.pod p).ch[c].waiting.isSome = true ∧ (s.pod p).reg 0x09 ≠ 0xFFFF
          then (s.pod p).reg 0x09 + 1 else (s.pod p).reg 0x09) ∧
        (t.pod p).alarms = (if ((s.pod p).reg (0x13 + 4 * c.val)).toNat ≤ value.toInt.natAbs / 256
          then (s.pod p).alarms ||| BitVec.ofNat 16 (2 ^ c.val) else (s.pod p).alarms) ∧
        (∀ d : Fin 4, d ≠ c → (t.pod p).ch[d] = (s.pod p).ch[d]) ∧ PodOnly u t p)) ∧
    (∀ (live : PodLive), (s.pod p).pg = false ∨ (s.pod p).locked = false → exec (.uplinkWordStart p live) s = .next s) ∧
    (∀ (live : PodLive) (at_ : Nat) (x : Pod) (pressing ends : Prop), x = s.pod p → at_ = s.gridAt 625 (max s.age x.busyUntil) →
      (pressing ↔ .status ∈ x.waiting ∧ ∃ d, x.statusDue = some d ∧ d + 800000 ≤ at_) →
      (ends ↔ (x.meas = true → ∀ (c : Fin 4) (n : Nat), x.chOn c = true → x.ch[c].next = some n →
        at_ + 21250 < n ∨ n + x.chPeriod c < at_ + 21250)) → x.pg = true → x.locked = true →
      (pressing → ∃ t, exec (.uplinkWordStart p live) s = .next t ∧ (t.pod p).word = some (false, x.control live .status,
        at_ + 21250) ∧ (t.pod p).waiting = x.waiting.erase .status ∧ (t.pod p).statusAt = at_ ∧ (t.pod p).statusDue = none ∧
        (t.pod p).alarmWords = x.alarmWords ∧ PodOnly (s.reachAge at_) t p) ∧
      (¬ pressing → 0 < x.alarmWords → ∃ t, exec (.uplinkWordStart p live) s = .next t ∧
        (t.pod p).alarmWords = x.alarmWords - 1 ∧ (t.pod p).word = some (false, mkControl 0x05 x.alarms.toNat 0, at_ + 21250) ∧
        (t.pod p).waiting = x.waiting ∧ PodOnly (s.reachAge at_) t p) ∧
      (¬ pressing → x.alarmWords = 0 → (∀ (c : Fin 4) (w : PodSample), x.ch[c].waiting = some w →
        (∀ d : Fin 4, d < c → x.ch[d].waiting = none) → ∃ t, exec (.uplinkWordStart p live) s = .next t ∧
        (t.pod p).ch[c].waiting = none ∧ (t.pod p).waiting = x.waiting ∧ (∃ b : BitVec 32, (t.pod p).word =
          some (true, b, at_ + 21250) ∧ wordOk b = true ∧ b.setWidth 24 = w.value ∧ b.extractLsb' 24 2 = BitVec.ofNat 2 c.val ∧
          b.extractLsb' 26 2 = (if w.notReady then 3 else if w.overload then 2
            else if s.gridAt 625 w.at_ < at_ then 1 else 0)) ∧ PodOnly (s.reachAge at_) t p) ∧
        ((∀ c : Fin 4, x.ch[c].waiting = none) →
          (∀ (w : PodWord) (rest : List PodWord), x.waiting = w :: rest → ends → ∃ t, exec (.uplinkWordStart p live) s = .next t ∧
            (t.pod p).waiting = rest ∧ (t.pod p).word = some (false, x.control live w, at_ + 21250) ∧
            (w = .status → (t.pod p).statusAt = at_ ∧ (t.pod p).statusDue = none) ∧ PodOnly (s.reachAge at_) t p) ∧
          (x.waiting = [] ∨ ¬ ends → exec (.uplinkWordStart p live) s = .next s)))) ∧
    ((s.pod p).pg = false ∨ (s.pod p).locked = false ∨ .status ∈ (s.pod p).waiting → exec (.statusDue p) s = .next s) ∧
    ((s.pod p).pg = true → (s.pod p).locked = true → .status ∉ (s.pod p).waiting → ∃ t, exec (.statusDue p) s = .next t ∧
      (t.pod p).waiting = (s.pod p).waiting ++ [.status] ∧ t.age = max s.age ((s.pod p).statusAt + 800000) ∧
      (t.pod p).statusDue = some t.age ∧ PodOnly (s.reachAge ((s.pod p).statusAt + 800000)) t p) ∧
    ((s.pod p).pg = true → exec (.podPgRise p) s = .next s) ∧
    ((s.pod p).pg = false → ∃ t, exec (.podPgRise p) s = .next t ∧ (t.pod p).pg = true ∧ (t.pod p).meas = true ∧
      (t.pod p).loadCut = false ∧ (t.pod p).onAlt = false ∧ (t.pod p).waiting = [.hello] ∧ (t.pod p).alarmWords = 0 ∧
      (∀ a, (t.pod p).reg a = podReset a) ∧ (∀ c : Fin 4, (t.pod p).ch[c] = {}) ∧ PodOnly s t p) ∧
    (∃ t, exec (.podPgFall p) s = .next t ∧ (t.pod p).pg = false ∧ (t.pod p).meas = false ∧ (t.pod p).onAlt = false ∧
      (t.pod p).waiting = [] ∧ (t.pod p).word = none ∧ (t.pod p).alarmWords = 0 ∧ (∀ a, (t.pod p).reg a = podReset a) ∧
      (∀ c : Fin 4, (t.pod p).ch[c] = {}) ∧ PodOnly s t p) ∧
    (exec (.measureLevelCross p (s.pod p).meas) s = .next s) ∧
    ((s.pod p).meas = true → ∃ t, exec (.measureLevelCross p false) s = .next t ∧ (t.pod p).meas = false ∧
      (t.pod p).ch = (s.pod p).ch ∧
      (t.pod p).alarms = (if (s.pod p).pg then (s.pod p).alarms ||| 0x10 else (s.pod p).alarms) ∧ PodOnly s t p) ∧
    ((s.pod p).meas = false → ∃ t, exec (.measureLevelCross p true) s = .next t ∧ (t.pod p).meas = true ∧
      (t.pod p).measAt = s.age ∧ (t.pod p).alarms = (s.pod p).alarms ∧ (∀ c : Fin 4,
        ((s.pod p).ch[c].next = none → (t.pod p).ch[c].next = none) ∧ (∀ n, (s.pod p).ch[c].next = some n → ∃ k,
          (t.pod p).ch[c].next = some (n + k * (s.pod p).chPeriod c) ∧ s.age ≤ n + k * (s.pod p).chPeriod c ∧
          (k ≠ 0 → n + (k - 1) * (s.pod p).chPeriod c < s.age))) ∧ PodOnly s t p) ∧
    ((s.pod p).dark ≠ none → exec (.carrierLoss p) s = .next s) ∧
    (∀ (u : State), (s.pod p).dark = none → u = (if s.level p = 0 then s.reachAge ((s.link p).carrierAt + 2500) else s) → ∃ t,
      exec (.carrierLoss p) s = .next t ∧ (t.pod p).dark = some u.age ∧ (t.pod p).locked = false ∧ (t.pod p).alarmWords = 0 ∧
      (t.pod p).acted = false ∧ (∀ c : Fin 4, (t.pod p).ch[c] = {}) ∧ (u.age < (s.pod p).busyUntil → (t.pod p).word = none) ∧
      PodOnly u t p) ∧
    (∀ (live : PodLive), (s.pod p).dark = none ∨ (s.pod p).pg = false ∨ (s.pod p).acted = true →
      exec (.darkTimeout p live) s = .next s) ∧
    (∀ (live : PodLive) (at_ : Nat), (s.pod p).dark = some at_ → (s.pod p).pg = true → (s.pod p).acted = false → ∃ t,
      exec (.darkTimeout p live) s = .next t ∧ (t.pod p).acted = true ∧
      ((s.pod p).darkMode = false → (t.pod p).loadCut = true ∧ (t.pod p).alarms = (s.pod p).alarms) ∧
      ((s.pod p).darkMode = true → live.alt = true → (t.pod p).onAlt = true ∧ (t.pod p).loadCut = (s.pod p).loadCut) ∧
      ((s.pod p).darkMode = true → live.alt = false → (t.pod p).loadCut = true ∧
        (t.pod p).alarms = (s.pod p).alarms ||| 0x40) ∧
      PodOnly (s.reachAge (at_ + ((s.pod p).reg 0x03).toNat * 125000)) t p) ∧
    (s.level p = 0 ∨ (s.pod p).locked = true → exec (.phaseLock p) s = .next s) ∧
    (s.level p ≠ 0 → (s.pod p).locked = false → ∃ t, exec (.phaseLock p) s = .next t ∧ (t.pod p).dark = none ∧
      (t.pod p).locked = true ∧ (t.pod p).lockAt = s.age ∧ (t.pod p).loadCut = false ∧
      ((s.pod p).pg = false → (t.pod p).waiting = (s.pod p).waiting) ∧
      ((s.pod p).pg = true → (t.pod p).waiting = (if .hello ∈ (s.pod p).waiting then (s.pod p).waiting
        else (s.pod p).waiting ++ [.status]) ∧ (t.pod p).alarmWords = (if (s.pod p).sendAlarms = 0 then 0 else 1)) ∧
      PodOnly s t p) ∧
    ((s.pod p).onAlt = false ∨ (s.pod p).locked = false → exec (.altRelease p) s = .next s) ∧
    ((s.pod p).onAlt = true → (s.pod p).locked = true → ∃ t, exec (.altRelease p) s = .next t ∧ (t.pod p).onAlt = false ∧
      t.age = max s.age ((s.pod p).lockAt + 800000) ∧ PodOnly (s.reachAge ((s.pod p).lockAt + 800000)) t p) ∧
    (∀ (bits : BitVec 8), ((s.pod p).pg = false → exec (.podAlarmRaise p bits) s = .next s) ∧ ((s.pod p).pg = true → ∃ t,
      exec (.podAlarmRaise p bits) s = .next t ∧ (t.pod p).alarms = (s.pod p).alarms ||| bits.setWidth 16 ∧
      (t.pod p).alarmWords = (s.pod p).alarmWords + (if (s.pod p).locked then (s.pod p).newAlarms (bits.setWidth 16) else 0) ∧
      (t.pod p).onAlt = ((s.pod p).onAlt && !bits.getLsbD 6) ∧
      (t.pod p).loadCut = ((s.pod p).loadCut || (bits.getLsbD 6 && (s.pod p).onAlt && (s.pod p).dark.isSome)) ∧
      (∀ a, a ≠ 5 → (t.pod p).reg a = (s.pod p).reg a) ∧ (t.pod p).ch = (s.pod p).ch ∧ PodOnly s t p)) ∧
    (∀ (live : PodLive), (s.pod p).dark = none ∨ (s.pod p).pg = false ∨ (s.pod p).burstEn = false ∨ (s.pod p).sendAlarms = 0 ∨
      canTransmit live = false → exec (.activeBurst p live) s = .next s) ∧
    (∀ (live : PodLive) (at_ : Nat), (s.pod p).dark = some at_ → (s.pod p).pg = true → (s.pod p).burstEn = true →
      (s.pod p).sendAlarms ≠ 0 → canTransmit live = true → ∃ t, exec (.activeBurst p live) s = .next t ∧
      (t.pod p).burst = some (mkControl 0x05 (s.pod p).alarms.toNat 0 ++ (0xACFF : BitVec 16)) ∧
      (t.pod p).burstAt = some t.age ∧ at_ + 25000 ≤ t.age ∧ (∀ b, (s.pod p).burstAt = some b → b + 12500000 ≤ t.age) ∧
      (∃ n, PodOnly (s.reachAge n) t p))

/-- With the carrier off no word arrives: each of these does nothing but a burst. With the carrier on, every word whose
chips break the Manchester code or that fails its check counts in CRC_ERR_CNT and does nothing else; a good control word of
another type is another command's. A good sample word waits to land in UP, on a channel that is up; in REALIGN a settled one
marks its channel and the last one brings UP; in step 5 of training a settled good one counts, with its L, and the last one
writes PGD and brings UP; else it marks the time of the last good word alone. HELLO trains a charging link (cause 0) and one
in UP or REALIGN (cause 3), and starts step 1 after RESET. STATUS shows in SL_STATUS and moves the level one step by VT_LO
and VT_HI within 1 and LEVEL_MAX, posts POD_DARK where the carrier was off before it, and trains a pod without its
configuration (cause 4). ECHO_RSP, WRITE_ACK and READ_RSP that answer the frame sent last bring the next step, a wrong
CFG_CRC a failure; those that answer an access end it, READ_RSP with its data; those that answer nothing have no effect.
ALARM shows in SL_ALARM and pulses the router. A burst does so with EN = 1 and the carrier off, sets VIA_BURST and counts;
one that fails its check counts as such. Only this link differs, its registers and PGD of its channels. -/
def Obligations.TheControllerTakesUplinkWords : Prop :=
  ∀ (s : State) (p : Fin 16),
    (∀ (x : BitVec 64), ∀ c ∈ [Instr.sampleWord p x, .hello p x, .status p x, .echoRsp p x, .writeAck p x, .readRsp p x,
      .alarm p x], (s.level p = 0 → exec c s = .next s) ∧ (s.level p ≠ 0 → chipsOk x = false ∨ wordOk (chipsBody x) = false →
      ∃ t, exec c s = .next t ∧ t.get (R.SL_COUNTS_CRC_ERR_CNT p) = min 255 (s.get (R.SL_COUNTS_CRC_ERR_CNT p) + 1) ∧
        Keeps (touches [(R.SL_COUNTS_CRC_ERR_CNT p).addr]) s t)) ∧
    (∀ (x : BitVec 64), bodyOk x = true → ∀ k ∈ [(1, Instr.hello p x), (2, .status p x), (3, .readRsp p x), (4, .writeAck p x),
      (5, .alarm p x), (6, .echoRsp p x)], controlType (chipsBody x) ≠ k.1 → exec k.2 s = .next s) ∧
    (∀ (x : BitVec 64) (w : BitVec 32) (c : Fin 4) (v : State), s.level p ≠ 0 → bodyOk x = true → w = chipsBody x →
      w.toNat / 2 ^ 24 % 4 = c.val → v = (s.modLink p fun y => { y with lastWord := s.age }) → ∃ t,
      exec (.sampleWord p x) s = .next t ∧
      (s.slState p = slUp → s.bit (R.SL_STATUS_CH_UP p) c.val = true →
        (t.link p).landing = (s.link p).landing ++ [⟨c, w.setWidth 24, w.extractLsb' 26 2, s.age⟩]) ∧
      (s.slState p ≠ slTrain → s.slState p ≠ slRealign → (s.slState p ≠ slUp ∨ s.bit (R.SL_STATUS_CH_UP p) c.val = false) →
        t = v) ∧
      (s.slState p = slRealign → (w.extractLsb' 26 2 = 3 → t = v) ∧ (w.extractLsb' 26 2 ≠ 3 →
        (t.link p).settled.getLsbD c.val = true ∧
        ((s.link p).channels.all (fun d => d == c || (s.link p).settled.getLsbD d.val) = true →
          t.slState p = slUp ∧ t.get (R.SL_STATUS_CH_UP p) = (s.link p).mask ∧ (t.link p).fails = 0))) ∧
      (s.slState p = slTrain → ((s.link p).train ≠ .measure ∨ w.extractLsb' 26 2 ≠ 0 ∨ (s.link p).chOn c = false ∨
          8 ≤ (s.link p).words[c] → t = v) ∧
        (∀ l : Nat, (s.link p).train = .measure → w.extractLsb' 26 2 = 0 → (s.link p).chOn c = true → (s.link p).words[c] < 8 →
          l = s.coarseAt s.age - (s.age - 21250 - ((((s.timeAt (s.age - 21250)).toNat : Int) - ((s.link p).phase[c]).toNat) %
            ((s.link p).chPeriod c : Int)).toNat) →
          (t.link p).words[c] = (s.link p).words[c] + 1 ∧
          (t.link p).least[c] = (if (s.link p).words[c] = 0 then l else min (s.link p).least[c] l) ∧
          ((t.link p).measured = true → t.slState p = slUp ∧ t.get (R.SL_STATUS_CH_UP p) = (s.link p).mask ∧
            ∀ d : Fin 4, (s.link p).chOn d = true → t.get (R.POD_PGD_PGD (podCh p d)) =
              (750 * ((s.link p).chM d - 1) + (t.link p).least[d] + 500) % 2 ^ 24))) ∧
      (t.link p).lastWord = s.age ∧ LinkOnly s t p) ∧
    (∀ (x : BitVec 64), s.level p ≠ 0 → bodyOk x = true → controlType (chipsBody x) = 1 → ∃ t, exec (.hello p x) s = .next t ∧
      (t.link p).gone = false ∧ (s.slState p = slCharge → EntersTrain s t p 0) ∧
      (s.slState p = slUp ∨ s.slState p = slRealign → EntersTrain s t p 3) ∧
      (s.slState p = slTrain → (s.link p).train = .reset → (t.link p).train = .echo 2 ∧ (t.link p).stepAt = s.age ∧
        SendsFrame s t p cmdEcho 0 0) ∧
      (s.slState p = slTrain ∧ (s.link p).train ≠ .reset ∨ s.slState p ∉ [slCharge, slTrain, slUp, slRealign] →
        t = s.modLink p fun y => { y with lastWord := s.age, gone := false }) ∧ LinkOnly s t p) ∧
    (∀ (x : BitVec 64) (d : Nat), s.level p ≠ 0 → bodyOk x = true → controlType (chipsBody x) = 2 →
      d = controlData (chipsBody x) → ∃ t, exec (.status p x) s = .next t ∧ t.get (R.SL_STATUS_VSTORE p) = d % 256 ∧
      t.flag (R.SL_STATUS_PG p) = (d / 256 % 2 == 1) ∧ t.flag (R.SL_STATUS_ON_ALT p) = (d / 2048 % 2 == 1) ∧
      t.level p = (if d % 256 < s.get (R.SL_PCTL_VT_LO p) then
          (if s.level p < s.get (R.SL_CTRL_LEVEL_MAX p) then s.level p + 1 else s.level p)
        else if s.get (R.SL_PCTL_VT_HI p) < d % 256 ∧ 1 < s.level p then s.level p - 1 else s.level p) ∧
      (t.link p).gone = false ∧ ((s.link p).gone = true → s.f0.entries.length < 32 → Staged t.f0 0x305 s.time) ∧
      (d / 8192 % 2 = 0 → s.slState p = slUp ∨ s.slState p = slRealign → EntersTrain s t p 4 ∧
        t.flag (R.SL_STATUS_CFG_OK p) = false) ∧
      (d / 8192 % 2 = 1 ∨ s.slState p ≠ slUp ∧ s.slState p ≠ slRealign → t.slState p = s.slState p) ∧ LinkOnly s t p) ∧
    (∀ (x : BitVec 64) (w : BitVec 32), s.level p ≠ 0 → bodyOk x = true → w = chipsBody x → controlType w = 6 → ∃ t,
      exec (.echoRsp p x) s = .next t ∧ (s.answersStep p w = true →
        (∀ n, (s.link p).train = .echo (n + 2) → (t.link p).train = .echo 1 ∧ (t.link p).stepAt = s.age ∧
          SendsFrame s t p cmdEcho 0 0) ∧
        (∀ n, (s.link p).train = .echo n → n < 2 → (t.link p).train = .config 0 ∧ (t.link p).stepAt = s.age ∧
          SendsFrame s t p cmdWrite 0x02 (s.link p).cfg[0].toNat)) ∧
      (s.answersStep p w = false ∨ (∀ n, (s.link p).train ≠ .echo n) →
        t = s.modLink p fun y => { y with lastWord := s.age }) ∧ LinkOnly s t p) ∧
    (∀ (x : BitVec 64) (w : BitVec 32), s.level p ≠ 0 → bodyOk x = true → w = chipsBody x → controlType w = 4 → ∃ t,
      exec (.writeAck p x) s = .next t ∧ (s.answersAccess p w = true → t.flag (R.SL_ACC_BUSY p) = false ∧
        (t.link p).acc = none ∧ (t.link p).train = (s.link p).train) ∧
      (s.answersAccess p w = false → s.answersStep p w = true →
        (∀ (k : Nat) (hk : k + 1 < 19), (s.link p).train = .config k → (t.link p).train = .config (k + 1) ∧
          (t.link p).stepAt = s.age ∧ SendsFrame s t p cmdWrite (cfgAddr (k + 1)) (s.link p).cfg[k + 1].toNat) ∧
        ((s.link p).train = .config 18 → (t.link p).train = .crc ∧ (t.link p).stepAt = s.age ∧ SendsFrame s t p cmdRead 0x07 0) ∧
        ((s.link p).train = .alarm →
          ((s.link p).channels ≠ [] → (t.link p).train = .measure ∧ (t.link p).words = Vector.replicate 4 0 ∧
            (t.link p).frames.length = (s.link p).frames.length + (s.link p).channels.length) ∧
          ((s.link p).channels = [] → t.slState p = slUp))) ∧
      (s.answersAccess p w = false → s.answersStep p w = false → t = s.modLink p fun y => { y with lastWord := s.age }) ∧
      LinkOnly s t p) ∧
    (∀ (x : BitVec 64) (w : BitVec 32), s.level p ≠ 0 → bodyOk x = true → w = chipsBody x → controlType w = 3 → ∃ t,
      exec (.readRsp p x) s = .next t ∧ (s.answersAccess p w = true → t.get (R.SL_ACC_DATA p) = controlData w ∧
        t.flag (R.SL_ACC_BUSY p) = false ∧ (t.link p).acc = none ∧ (t.link p).train = (s.link p).train) ∧
      (s.answersAccess p w = false → s.answersStep p w = true → (s.link p).train = .crc →
        t.flag (R.SL_STATUS_CFG_OK p) = (controlData w == cfgCrc (s.link p).cfg.toList) ∧
        (controlData w = cfgCrc (s.link p).cfg.toList → (t.link p).train = .alarm ∧ (t.link p).stepAt = s.age ∧
          SendsFrame s t p cmdWrite 0x05 0xFFFF) ∧
        (controlData w ≠ cfgCrc (s.link p).cfg.toList → Fails s t p ∧
          ((s.link p).fails + 1 < s.get (R.SL_CTRL_RETRY_MAX p) → EntersTrain s t p 5))) ∧
      (s.answersAccess p w = false → s.answersStep p w = false ∨ (s.link p).train ≠ .crc →
        t = s.modLink p fun y => { y with lastWord := s.age }) ∧ LinkOnly s t p) ∧
    (∀ (x : BitVec 64), s.level p ≠ 0 → bodyOk x = true → controlType (chipsBody x) = 5 → ∃ t, exec (.alarm p x) s = .next t ∧
      t.get (R.SL_ALARM_LAST p) = controlData (chipsBody x) % 256 ∧ t.router.pulses.getLsbD (0xC0 + p.val) = true ∧
      (s.f0.entries.length < 32 → Staged t.f0 0x304 s.time) ∧ t.link p = { (s.link p) with lastWord := s.age } ∧
      LinkOnly s t p) ∧
    (∀ (b : BitVec 48), s.flag (R.SL_CTRL_EN p) = false ∨ s.level p ≠ 0 ∨ b.toNat % 65536 ≠ 0xACFF →
      exec (.burstReceive p b) s = .next s) ∧
    (∀ (body : BitVec 32), s.flag (R.SL_CTRL_EN p) = true → s.level p = 0 → ∃ t,
      exec (.burstReceive p (body ++ (0xACFF : BitVec 16))) s = .next t ∧
      (wordOk body = false → t.get (R.SL_COUNTS_CRC_ERR_CNT p) = min 255 (s.get (R.SL_COUNTS_CRC_ERR_CNT p) + 1) ∧
        t.get (R.SL_ALARM_LAST p) = s.get (R.SL_ALARM_LAST p)) ∧
      (wordOk body = true → controlType body ≠ 5 → t = s) ∧
      (wordOk body = true → controlType body = 5 → t.get (R.SL_ALARM_LAST p) = controlData body % 256 ∧
        t.flag (R.SL_ALARM_VIA_BURST p) = true ∧
        t.get (R.SL_COUNTS_BURST_CNT p) = min 255 (s.get (R.SL_COUNTS_BURST_CNT p) + 1) ∧
        t.router.pulses.getLsbD (0xC0 + p.val) = true) ∧ LinkOnly s t p)

/-- EN = 1 of a link that is OFF starts CHARGE with the carrier at LEVEL_START (after a cut the carrier stays off for the
rest of the window), EN = 0 brings OFF without carrier and without channels; a write that the lock refuses changes nothing.
RETRAIN trains a link in UP or REALIGN (cause 1), and does nothing else. 10 ms of charge without HELLO is a failure and ends
the carrier, which comes back 1 ms later. 160 µs without a valid word train (cause 2). A training step without its answer is
a failure, followed by training with cause 5 below RETRY_MAX; an access without answer ends with ERR. A link that has left
the state of a time-out by then, or is in no such state, is left as it is. The tick that would bring USED above E_CAP cuts
the carrier: CAP_CUT, CAPCUT_CNT, GAP; where the window ends first, nothing. A window start makes the book whole, less the
level of its own tick, takes a link out of GAP with its carrier on, and turns on the carrier of a charging link that a cut
held off. An access is sent in UP and REALIGN (a write to ALARM alone), else ERR; a second one while BUSY, or one that does
not reach, has no effect. -/
def Obligations.LinkControlFollowsWritesAndTimeouts : Prop :=
  ∀ (s : State) (p : Fin 16),
    (∀ (a : Agent) (on : Bool), s.mayEnable a 4 (R.SL_CTRL_EN p) on = true → ∃ t, exec (.slEn p a on) s = .next t ∧
      t.flag (R.SL_CTRL_EN p) = on ∧
      (on = true → s.slState p = slOff → t.slState p = slCharge ∧ ((s.link p).cut = false →
        t.level p = s.get (R.SL_CTRL_LEVEL_START p) ∧ (t.link p).carrierAt = s.age) ∧
        ((s.link p).cut = true → t.level p = s.level p)) ∧
      (on = true → s.slState p ≠ slOff → t = s.setFlag (R.SL_CTRL_EN p) true) ∧
      (on = false → t.slState p = slOff) ∧
      (on = false → s.slState p ≠ slOff → t.level p = 0 ∧ t.get (R.SL_STATUS_CH_UP p) = 0) ∧ LinkOnly s t p) ∧
    (∀ (a : Agent) (on : Bool), s.mayEnable a 4 (R.SL_CTRL_EN p) on = false → exec (.slEn p a on) s = .next s) ∧
    (∀ (a : Agent), s.reaches a = true → s.slState p = slUp ∨ s.slState p = slRealign → ∃ t, exec (.retrain p a) s = .next t
      ∧ EntersTrain s t p 1 ∧ LinkOnly s t p) ∧
    (∀ (a : Agent), s.reaches a = false ∨ (s.slState p ≠ slUp ∧ s.slState p ≠ slRealign) → exec (.retrain p a) s = .next s) ∧
    (∀ (u : State), u = s.reachAge ((s.link p).carrierAt + 125000000) →
      (s.slState p ≠ slCharge ∨ s.level p = 0 → exec (.chargeTimeout p) s = .next s) ∧
      (s.slState p = slCharge → s.level p ≠ 0 → ∃ t, exec (.chargeTimeout p) s = .next t ∧ (u.slState p ≠ slCharge → t = u) ∧
        (u.slState p = slCharge → Fails u t p ∧ t.level p = 0 ∧
          ((u.link p).fails + 1 < u.get (R.SL_CTRL_RETRY_MAX p) → t.slState p = slCharge) ∧ LinkOnly u t p))) ∧
    (∀ (u : State), u = s.reachAge ((s.link p).carrierAt + 12500000) →
      (s.slState p ≠ slCharge ∨ s.level p ≠ 0 → exec (.chargeRetry p) s = .next s) ∧
      (s.slState p = slCharge → s.level p = 0 → ∃ t, exec (.chargeRetry p) s = .next t ∧
        (u.slState p ≠ slCharge ∨ u.level p ≠ 0 ∨ (u.link p).cut = true → t = u) ∧
        (u.slState p = slCharge → u.level p = 0 → (u.link p).cut = false → t.slState p = slCharge ∧
          t.level p = u.get (R.SL_CTRL_LEVEL_START p) ∧ (t.link p).carrierAt = u.age ∧ LinkOnly u t p))) ∧
    (∀ (u : State), u = s.reachAge ((s.link p).lastWord + 2000000) →
      (s.slState p ≠ slUp ∧ s.slState p ≠ slRealign → exec (.linkSilence p) s = .next s) ∧
      (s.slState p = slUp ∨ s.slState p = slRealign → ∃ t, exec (.linkSilence p) s = .next t ∧
        (u.slState p ≠ slUp ∧ u.slState p ≠ slRealign → t = u) ∧
        (u.slState p = slUp ∨ u.slState p = slRealign → EntersTrain u t p 2 ∧ LinkOnly u t p))) ∧
    (∀ (q : BitVec 4) (at_ : Nat), (s.link p).acc = some (q, at_) → ∃ t, exec (.podAnswerTimeout p) s = .next t ∧
      t.flag (R.SL_ACC_ERR p) = true ∧ t.flag (R.SL_ACC_BUSY p) = false ∧ (t.link p).acc = none ∧
      LinkOnly (s.reachAge (at_ + 2500000)) t p) ∧
    (∀ (u : State), (s.link p).acc = none → u = s.reachAge ((s.link p).stepAt + (s.link p).stepLimit) →
      (s.slState p ≠ slTrain → exec (.podAnswerTimeout p) s = .next s) ∧
      (s.slState p = slTrain → ∃ t, exec (.podAnswerTimeout p) s = .next t ∧ (u.slState p ≠ slTrain → t = u) ∧
        (u.slState p = slTrain → Fails u t p ∧
          ((u.link p).fails + 1 < u.get (R.SL_CTRL_RETRY_MAX p) → EntersTrain u t p 5) ∧ LinkOnly u t p))) ∧
    (∀ (d : Nat), d = 125 - s.fine + 125 * (s.get (R.SL_ENERGY_REMAIN p) / s.level p) →
      (s.level p = 0 ∨ 128000 - s.time.toNat % 128000 ≤ d → exec (.carrierCapCut p) s = .next s) ∧
      (s.unpredRegs = [] → s.sup.inReset = false → s.fine < 125 → s.level p ≠ 0 → d < 128000 - s.time.toNat % 128000 →
        ∃ t, exec (.carrierCapCut p) s = .next t ∧ t.slState p = slGap ∧ t.level p = 0 ∧
        t.flag (R.SL_STATUS_CAP_CUT p) = true ∧ (t.link p).cut = true ∧
        t.get (R.SL_COUNTS_CAPCUT_CNT p) = min 255 (s.get (R.SL_COUNTS_CAPCUT_CNT p) + 1) ∧
        (t.link p).prev = s.slState p ∧ t.age = s.age + d)) ∧
    (s.time.toNat % 128000 = 0 ∨ s.sup.inReset = true → ∃ t, exec (.budgetWindowStart p) s = .next t ∧
      t.links = s.links ∧ Keeps (touches [] [.time]) s t) ∧
    (s.unpredRegs = [] → s.sup.inReset = false → s.fine = s.time.toNat % 125 → s.time.toNat % 128000 ≠ 0 →
      s.time.toNat + 128000 < 2 ^ 48 → ∃ t, exec (.budgetWindowStart p) s = .next t ∧
      (∀ k : Fin 16, t.get (R.SL_ENERGY_USED k) = t.level k ∧
        t.get (R.SL_ENERGY_REMAIN k) + t.level k = t.get (R.SL_CAP_E_CAP k)) ∧ t.time.toNat % 128000 = 0 ∧
      (s.slState p = slGap → s.level p = 0 → s.get (R.SL_CTRL_LEVEL_START p) ≤ s.get (R.SL_CAP_E_CAP p) →
        t.level p = s.get (R.SL_CTRL_LEVEL_START p) ∧ t.slState p = (if (s.link p).prev = slCharge ∨ (s.link p).prev = slTrain
          then slTrain else if (s.link p).channels = [] then slUp else slRealign)) ∧
      (s.slState p = slCharge → (s.link p).cut = true → s.level p = 0 →
        s.get (R.SL_CTRL_LEVEL_START p) ≤ s.get (R.SL_CAP_E_CAP p) →
        t.level p = s.get (R.SL_CTRL_LEVEL_START p) ∧ t.slState p = slCharge ∧ (t.link p).cut = false)) ∧
    (∀ (a : Agent) (addr : BitVec 8), s.reaches a = true → s.flag (R.SL_ACC_BUSY p) = false → ∃ t,
      exec (.slAccRead p a addr) s = .next t ∧ t.get (R.SL_ACC_ADDR p) = addr.toNat ∧
      (s.slState p = slUp ∨ s.slState p = slRealign → t.flag (R.SL_ACC_BUSY p) = true ∧
        (t.link p).acc = some ((s.link p).seq + 1, s.age) ∧ SendsFrame s t p cmdRead addr.toNat 0) ∧
      (s.slState p ≠ slUp → s.slState p ≠ slRealign → t.flag (R.SL_ACC_ERR p) = true ∧ t.flag (R.SL_ACC_BUSY p) = false) ∧
      LinkOnly s t p) ∧
    (∀ (a : Agent) (addr : BitVec 8) (data : BitVec 16), s.reaches a = true → s.flag (R.SL_ACC_BUSY p) = false → ∃ t,
      exec (.slAccWrite p a addr data) s = .next t ∧ t.get (R.SL_ACC_ADDR p) = addr.toNat ∧
      t.get (R.SL_ACC_DATA p) = data.toNat ∧
      (addr = 5 → s.slState p = slUp ∨ s.slState p = slRealign → t.flag (R.SL_ACC_BUSY p) = true ∧
        (t.link p).acc = some ((s.link p).seq + 1, s.age) ∧ SendsFrame s t p cmdWrite 5 data.toNat) ∧
      (addr ≠ 5 ∨ (s.slState p ≠ slUp ∧ s.slState p ≠ slRealign) → t.flag (R.SL_ACC_ERR p) = true ∧
        t.flag (R.SL_ACC_BUSY p) = false) ∧ LinkOnly s t p) ∧
    (∀ (a : Agent), s.reaches a = false ∨ s.flag (R.SL_ACC_BUSY p) = true →
      (∀ addr, exec (.slAccRead p a addr) s = .next s) ∧ (∀ addr data, exec (.slAccWrite p a addr data) s = .next s))

/-- EN = 1 starts ACQUIRE with angle 0 at FNOM, EN = 0 brings IDLE; a write of the value EN has, or one the lock refuses,
changes nothing. At the first coarse tick after a commit of the owner its words move the angle within SLEW and set FREQ
within FMIN and FMAX in ACQUIRE and LOCKED; in other states they are recorded; RESID is recorded. Two turns in COAST bring
FAIL, one turn in LIMP without a valid edge COAST. Eight turns of good samples in LIMP or FAIL, with at least one sample
(the model's choice, log entry 59), start a blend to the primary at the recorded words. A blend step adds its share of the
offset, the 64th ends in LIMP or LOCKED. The oldest change of the limp comparator is taken as an edge, LIMP_DLY before:
recorded in LIMP_BLEND; one that is not valid counts, is posted and restarts the pattern, the second in a row in LIMP brings
COAST; the first in COAST or FAIL starts a pattern, and the third valid one with a period starts LIMP_BLEND; a valid one in
LIMP corrects the angle and sets FREQ from the period since the edge of its polarity before it. An event arms in its window
at its predicted crossing plus OFFSET, or late at the next fine tick, counted and posted; at its instant it fires once, in a
state that fires events: a slot pulses its source, a sequence has its trigger served. Otherwise each of these does nothing.
-/
def Obligations.TheWheelChangesStateByItsTable : Prop :=
  ∀ (s : State),
    (∀ (a : Agent), s.mayEnable a 6 R.WHL_CTRL_EN true = true → s.flag R.WHL_CTRL_EN = false → ∃ t,
      exec (.wheelEn a true) s = .next t ∧ t.flag R.WHL_CTRL_EN = true ∧ t.wheel.acc = 0 ∧
      t.freq = min (max (s.get R.WHL_FNOM_FNOM) (s.get R.WHL_FMIN_FMIN)) (s.get R.WHL_FMAX_FMAX) ∧ WheelEnters s t whlAcquire ∧
      Keeps (touches (R.WHL_CTRL_EN.addr :: wheelRegs) [.wheel]) s t) ∧
    (∀ (a : Agent), s.mayEnable a 6 R.WHL_CTRL_EN false = true → s.flag R.WHL_CTRL_EN = true → ∃ t,
      exec (.wheelEn a false) s = .next t ∧ t.flag R.WHL_CTRL_EN = false ∧ WheelEnters s t whlIdle ∧
      Keeps (touches (R.WHL_CTRL_EN.addr :: wheelRegs) [.wheel]) s t) ∧
    (∀ (a : Agent) (on : Bool), on = s.flag R.WHL_CTRL_EN ∨ s.mayEnable a 6 R.WHL_CTRL_EN on = false →
      exec (.wheelEn a on) s = .next s) ∧
    (∀ (u : State) (v : Int), u = s.afterCommit s.ownerWheel.toList → v = u.get R.WHL_SLEW_SLEW_MAX * 65536 → ∃ t,
      exec .wheelCorrection s = .next t ∧ t.whl = u.whl ∧
      (u.whl = whlAcquire ∨ u.whl = whlLocked →
        t.wheel.acc = u.wheel.acc + BitVec.ofInt 40 ((u.wheel.newCorr.map fun c => clampInt c.toInt (-v) v).getD 0 * 256) ∧
        t.freq = (u.wheel.newFreq.map fun f => min (max f.toNat (u.get R.WHL_FMIN_FMIN)) (u.get R.WHL_FMAX_FMAX)).getD u.freq ∧
        t.wheel.recResid = (u.wheel.newResid.map (·.toNat)).getD u.wheel.recResid) ∧
      (u.whl ≠ whlAcquire → u.whl ≠ whlLocked → t.freq = u.freq ∧ t.wheel = { u.wheel with
        recCorr := (u.wheel.newCorr.map (·.toInt)).getD u.wheel.recCorr,
        recFreq := (u.wheel.newFreq.map (·.toNat)).getD u.wheel.recFreq,
        recResid := (u.wheel.newResid.map (·.toNat)).getD u.wheel.recResid, newCorr := none, newFreq := none, newResid := none }) ∧
      t.wheel.newCorr = none ∧ t.wheel.newFreq = none ∧ t.wheel.newResid = none ∧
      Keeps (touches (R.GF_STATUS_ACTION.addr :: wheelRegs) [.wheel, .free]) u t) ∧
    ((s.whl ≠ whlCoast ∨ s.reachAdvance (s.wheel.entryAdv + 2 * 2 ^ 40) = none → exec .coastExpire s = .next s) ∧
      ∀ (u : State), s.whl = whlCoast → s.reachAdvance (s.wheel.entryAdv + 2 * 2 ^ 40) = some u → ∃ t,
      exec .coastExpire s = .next t ∧ WheelEnters u t whlFail ∧ Keeps (touches wheelRegs [.wheel, .router]) u t) ∧
    ((s.whl ≠ whlLimp ∨ s.reachAdvance (s.wheel.validAdv + 2 ^ 40) = none → exec .limpLost s = .next s) ∧
      ∀ (u : State), s.whl = whlLimp → s.reachAdvance (s.wheel.validAdv + 2 ^ 40) = some u → ∃ t,
      exec .limpLost s = .next t ∧ WheelEnters u t whlCoast ∧ t.wheel.edges = [] ∧ Keeps (touches wheelRegs [.wheel]) u t) ∧
    (((s.whl ≠ whlLimpBlend ∧ s.whl ≠ whlPriBlend) ∨
        s.reachAdvance (s.wheel.blendAdv + (s.wheel.blendK + 1) * 2 ^ 34) = none → exec .wheelBlendStep s = .next s) ∧
      ∀ (u : State), s.whl = whlLimpBlend ∨ s.whl = whlPriBlend →
      s.reachAdvance (s.wheel.blendAdv + (s.wheel.blendK + 1) * 2 ^ 34) = some u → ∃ t, exec .wheelBlendStep s = .next t ∧
      t.wheel.acc = u.wheel.acc + BitVec.ofInt 40 ((roundDiv (u.wheel.delta * (u.wheel.blendK + 1)) 64 -
        roundDiv (u.wheel.delta * u.wheel.blendK) 64) * 256) ∧ t.wheel.blendK = u.wheel.blendK + 1 ∧
      (u.wheel.blendK < 63 → t.whl = u.whl) ∧
      (63 ≤ u.wheel.blendK → WheelEnters u t (if u.whl = whlLimpBlend then whlLimp else whlLocked)) ∧
      Keeps (touches wheelRegs [.wheel]) u t) ∧
    (((s.whl ≠ whlLimp ∧ s.whl ≠ whlFail) ∨ s.wheel.qualGood = false ∨ s.reachAdvance (s.wheel.qualAdv + 8 * 2 ^ 40) = none ∨
        (∃ u, s.reachAdvance (s.wheel.qualAdv + 8 * 2 ^ 40) = some u ∧ u.sampleDue = true) →
        exec .primaryQualified s = .next s) ∧
      ∀ (u : State), s.whl = whlLimp ∨ s.whl = whlFail → s.wheel.qualGood = true →
      s.reachAdvance (s.wheel.qualAdv + 8 * 2 ^ 40) = some u → u.sampleDue = false → ∃ t, exec .primaryQualified s = .next t ∧
      WheelEnters u t whlPriBlend ∧ t.freq = min (max u.wheel.recFreq (u.get R.WHL_FMIN_FMIN)) (u.get R.WHL_FMAX_FMAX) ∧
      t.wheel.delta = clampInt u.wheel.recCorr (-(u.get R.WHL_SLEW_SLEW_MAX * 65536 : Int)) (u.get R.WHL_SLEW_SLEW_MAX * 65536) ∧
      t.wheel.blendK = 0 ∧ t.wheel.blendAdv = u.wheel.adv ∧ Keeps (touches wheelRegs [.wheel]) u t) ∧
    (s.wheel.seen = [] → exec .limpEdge s = .next s) ∧
    (∀ (rising : Bool) (at_ v : Time) (rest : List (Bool × Time)) (w : Wheel), s.wheel.seen = (rising, at_) :: rest →
      v = at_ - BitVec.ofNat 48 (s.get R.WHL_LIMP2_LIMP_DLY) → w = { s.wheel with seen := rest } → ∃ t,
      exec .limpEdge s = .next t ∧
      (s.whl ∉ [whlCoast, whlFail, whlLimp, whlLimpBlend] → t = { s with wheel := w }) ∧
      (s.whl = whlLimpBlend ∨ (s.whl = whlLimp ∧ s.wheel.edges = []) →
        t = { s with wheel := { w with edges := ((rising, v) :: s.wheel.edges).take 4 } }) ∧
      (s.whl = whlCoast ∨ s.whl = whlFail → s.wheel.edges = [] → t.wheel.edges = [(rising, v)] ∧ t.wheel.badEdges = 0 ∧
        t.wheel.validAdv = s.wheel.adv ∧ t.get R.WHL_LSTAT_EDGES = min 3 (s.get R.WHL_LSTAT_EDGES + 1) ∧ t.whl = s.whl ∧
        t.freq = s.freq ∧ t.wheel.acc = s.wheel.acc) ∧
      (∀ (pol : Bool) (b : Time) (l : List (Bool × Time)), s.whl = whlCoast ∨ s.whl = whlFail ∨ s.whl = whlLimp →
        s.wheel.edges = (pol, b) :: l →
        (pol = rising ∨ s.halfPeriodOk (ticksFrom b v) = false →
          t.get R.WHL_LSTAT_LIMP_BAD_CNT = min 255 (s.get R.WHL_LSTAT_LIMP_BAD_CNT + 1) ∧
          (s.f0.entries.length < 31 → Staged t.f0 0x401 s.time) ∧ t.freq = s.freq ∧ t.wheel.acc = s.wheel.acc ∧
          (s.whl ≠ whlLimp → t.whl = s.whl ∧ t.wheel.edges = [(rising, v)] ∧ t.get R.WHL_LSTAT_EDGES = 1) ∧
          (s.whl = whlLimp → s.wheel.badEdges = 0 → t.whl = s.whl ∧ t.wheel.edges = ((rising, v) :: s.wheel.edges).take 4 ∧
            t.get R.WHL_LSTAT_EDGES = 1 ∧ t.wheel.badEdges = 1) ∧
          (s.whl = whlLimp → 0 < s.wheel.badEdges → t.whl = whlCoast ∧ t.wheel.edges = [] ∧
            t.get R.WHL_STATUS_LOSS_CNT = min 255 (s.get R.WHL_STATUS_LOSS_CNT + 1))) ∧
        (pol ≠ rising → s.halfPeriodOk (ticksFrom b v) = true → t.wheel.validAdv = s.wheel.adv ∧ t.wheel.badEdges = 0 ∧
          t.wheel.edges = ((rising, v) :: s.wheel.edges).take 4 ∧
          (∀ per : Nat, ((s.wheel.edges.find? fun x => x.1 == rising).map fun x => ticksFrom x.2 v) = some per →
            s.whl = whlLimp ∨ (2 ≤ s.get R.WHL_LSTAT_EDGES ∧ s.flag R.WHL_CTRL_LIMP_EN = true) →
            t.freq = min (max (roundDiv (2 ^ 40 * 125) per).toNat (s.get R.WHL_FMIN_FMIN)) (s.get R.WHL_FMAX_FMAX) ∧
            (s.whl ≠ whlLimp → WheelEnters s t whlLimpBlend ∧ t.wheel.delta = s.edgeError rising at_ ∧ t.wheel.blendK = 0)) ∧
          (s.whl = whlLimp → t.whl = whlLimp ∧ t.wheel.acc = s.wheel.acc +
            BitVec.ofInt 40 (roundDiv (s.edgeError rising at_) (2 ^ s.get R.WHL_CTRL_LIMP_SH) * 256)) ∧
          (s.whl ≠ whlLimp → t.wheel.acc = s.wheel.acc ∧ t.get R.WHL_LSTAT_EDGES = min 3 (s.get R.WHL_LSTAT_EDGES + 1) ∧
            (s.get R.WHL_LSTAT_EDGES < 2 ∨ s.flag R.WHL_CTRL_LIMP_EN = false ∨
              (s.wheel.edges.find? fun x => x.1 == rising) = none → t.whl = s.whl ∧ t.freq = s.freq)))) ∧
      Keeps (touches wheelRegs [.wheel]) s t) ∧
    (∀ (k : Fin 40), s.armAt k = none → exec (.angleArm k) s = .next s) ∧
    (∀ (k : Fin 40) (at_ d : Nat) (ahead : Int) (u : State), s.armAt k = some at_ → u = s.reachAge at_ →
      d = (u.eventAngle k + 2 ^ 32 - u.angleAt at_) % 2 ^ 32 →
      ahead = ((d * 32000 + u.freq - 1) / u.freq : Nat) + u.eventOffset k → ∃ t, exec (.angleArm k) s = .next t ∧
      whlFires s.whl = true ∧ s.eventOn k = true ∧ s.inWindow k at_ = true ∧ s.armFrom k ≤ at_ ∧
      t.wheel.slots[k].armAdv = some (u.advAt at_) ∧
      (0 < ahead → t.wheel.slots[k].armed = some (u.timeAt at_ + BitVec.ofInt 48 ahead, false)) ∧
      (ahead ≤ 0 → t.wheel.slots[k].armed = some (u.timeAt at_ + 1, true) ∧
        t.get R.WHL_LSTAT_LATE_ARM_CNT = min 255 (u.get R.WHL_LSTAT_LATE_ARM_CNT + 1) ∧
        (u.f0.entries.length < 31 → Staged t.f0 0x402 u.time)) ∧
      (∀ j : Fin 40, j ≠ k → t.wheel.slots[j] = u.wheel.slots[j]) ∧ Keeps (touches [R.WHL_LSTAT_EDGES.addr] [.wheel]) u t) ∧
    (∀ (k : Fin 40), s.wheel.slots[k].armed = none → exec (.angleEventFire k) s = .next s) ∧
    (∀ (k : Fin 40) (at_ : Time) (late : Bool) (v u : State), s.wheel.slots[k].armed = some (at_, late) → v = s.reach at_ →
      u = (v.modWheel fun w => { w with slots := upd w.slots k fun x => { x with armed := none } }) → ∃ t,
      exec (.angleEventFire k) s = .next t ∧ t.wheel.slots[k].armed = none ∧
      (∀ j : Fin 40, j ≠ k → t.wheel.slots[j] = v.wheel.slots[j]) ∧
      (whlFires v.whl = false → t = u) ∧
      (k.val < 8 → whlFires v.whl = true → t.router.pulses.getLsbD (0xD0 + k.val) = true ∧
        Keeps (touches [] [.wheel, .router]) v t) ∧
      (∀ (p : Fin 8) (q : Fin 4), k.val = 8 + 4 * p.val + q.val → whlFires v.whl = true →
        (∀ e : Fin 8, u.pairOwner p = some e → u.wheelAccess e = true → u.seqArmed p q = true → u.get (R.ADC_SEQ_SRC p q) = 2 →
          TriggerServed u t p ⟨q, u.age, late, u.whl == whlCoast⟩ e) ∧
        (u.seqArmed p q = false ∨ u.get (R.ADC_SEQ_SRC p q) ≠ 2 ∨ (∀ e : Fin 8, u.pairOwner p = some e →
          u.wheelAccess e = false) → t = u)))

/-- Outside device reset the next evaluation tick (a 100 µs multiple, not the one done last) is reached and done: with the
GFU on the measurement age is 0 with fresh voltages, else rises; each active timer that its state lets run rises outside its
level to its stop, clears beyond the hysteresis, and else holds; TRIPPED means ACTION 3, else ACTION is the worst asserted
action; the requests are spent. An asserted point and the age trip set ACTION so, an asserted TRIP and the age trip set
TRIPPED, counted. A tap that may start at that tick starts in PRE. A phase that has had its ticks gives way to the next;
POST ends the tap, and a valid point gives Z and E, a fresh estimator, and islanding above the limit. The estimator starves
and grows stale after STARVE_T and STALE_T. A full string step is skipped and counted if no tick was refreshed or the owner
stood still, and else moves V_REF within VMIN and VMAX: up first or while curtailed, by perturb and observe with its
direction, or by incremental conductance. EN of the GFU clears its timers and age, starts the estimator at its factory
values, and ends the tap and the counts; EN of a string restarts it at VSTART; the other writes leave their requests. Else,
and by a write that the lock refuses or that does not reach, nothing happens. -/
def Obligations.TheGridUnitEvaluatesEachTick : Prop :=
  ∀ (s : State),
    (s.sup.inReset = true → exec .evaluationTick s = .next s) ∧
    (∀ (u : State), s.sup.inReset = false → u = (if s.grid.evalAt = some s.age then s.elapse 1 else s).reachMultiple 1250000 → ∃ t,
      exec .evaluationTick s = .next t ∧ t.age = u.age ∧ t.grid.evalAt = some u.age ∧ t.grid.tripClr = false ∧
      t.grid.islClr = false ∧ t.grid.tapNow = false ∧ t.grid.freshV = false ∧ t.grid.freshTap = false ∧ t.grid.freshS = 0 ∧
      (u.gfuOn = false → t.grid.timers = u.grid.timers ∧ t.get R.GF_MEAS_AGE_NOW = u.get R.GF_MEAS_AGE_NOW) ∧
      (u.gfuOn = true →
        t.get R.GF_MEAS_AGE_NOW = (if u.grid.freshV then 0 else min 65535 (u.get R.GF_MEAS_AGE_NOW + 1)) ∧
        ∀ (k : Fin 16) (out back : Bool),
          out = (if u.pointOver k then decide (u.pointLvl k < u.pointX k) else decide (u.pointX k < u.pointLvl k)) →
          back = (if u.pointOver k then decide (u.pointX k + u.pointHys k < u.pointLvl k)
            else decide (u.pointLvl k + u.pointHys k < u.pointX k)) →
          t.grid.timers[k] = (if u.pointAct k = 0 ∨ (8 ≤ k.val ∧ u.freqHeld = true) then u.grid.timers[k]
            else if out then min (2 ^ 24 - 1) (u.grid.timers[k] + 1) else if back then 0 else u.grid.timers[k])) ∧
      t.action = (if t.flag R.GF_STATUS_TRIPPED then 3 else t.worstAction) ∧
      Keeps { parts := [.grid, .metering, .free], regs := fun a => a == R.GF_STATUS_ACTION.addr || a == R.GF_MEAS_AGE_NOW.addr ||
        (fins 8).any fun k => [(R.MP_CTRL_EN k).addr, (R.MP_VREF_VREF k).addr, (R.MP_SKIP_SKIP_CNT k).addr].contains a } u t) ∧
    (∀ (k : Fin 16), s.asserted k = false → exec (.pointAsserted k) s = .next s) ∧
    (∀ (k : Fin 16), s.asserted k = true → ∃ t, exec (.pointAsserted k) s = .next t ∧ s.pointAct k ≤ t.action ∧
      (s.pointAct k = 3 → t.flag R.GF_STATUS_TRIPPED = true ∧ t.action = 3) ∧
      (s.flag R.GF_STATUS_TRIPPED = false → t.flag R.GF_STATUS_TRIPPED = true →
        t.get R.GF_STATUS_TRIP_CNT = min 255 (s.get R.GF_STATUS_TRIP_CNT + 1)) ∧
      t.action = (if t.flag R.GF_STATUS_TRIPPED then 3 else s.worstAction) ∧
      (t.action ≠ s.action → s.f0.entries.length < 31 → Staged t.f0 0x500 s.time) ∧
      Keeps (touches [R.GF_STATUS_ACTION.addr]) s t) ∧
    (s.gfuOn = false ∨ s.flag R.GF_CTRL_MEAS_TRIP = false ∨ s.get R.GF_MEAS_AGE_NOW ≤ s.get R.GF_MEAS_MEAS_AGE →
      exec .measAgeTrip s = .next s) ∧
    (s.gfuOn = true → s.flag R.GF_CTRL_MEAS_TRIP = true → s.get R.GF_MEAS_MEAS_AGE < s.get R.GF_MEAS_AGE_NOW → ∃ t,
      exec .measAgeTrip s = .next t ∧ t.flag R.GF_STATUS_TRIPPED = true ∧ t.action = 3 ∧
      (s.flag R.GF_STATUS_TRIPPED = false → t.get R.GF_STATUS_TRIP_CNT = min 255 (s.get R.GF_STATUS_TRIP_CNT + 1)) ∧
      Keeps (touches [R.GF_STATUS_ACTION.addr]) s t) ∧
    (∀ (u : State), u = (if s.grid.evalAt = some s.age then s.elapse 1 else s).reachMultiple 1250000 →
      (s.sup.inReset = true ∨ u.mayTap = false → exec .tapStart s = .next s) ∧
      (s.sup.inReset = false → u.mayTap = true → ∃ t, exec .tapStart s = .next t ∧ t.flag R.GF_STATUS_TAP_BUSY = true ∧
        (∃ x, t.grid.tap = some x ∧ x.phase = 0 ∧ x.tick = 0) ∧ t.grid.tapStart = u.age ∧ t.grid.tapNow = false ∧
        Keeps (touches [R.GF_STATUS_ACTION.addr] [.grid, .metering]) u t)) ∧
    (s.grid.tap = none ∨ (∃ x, s.grid.tap = some x ∧ x.tick < s.tapTicks x.phase) → exec .tapPhaseEnd s = .next s) ∧
    (∀ (x : Tap), s.grid.tap = some x → s.tapTicks x.phase ≤ x.tick → x.phase < 3 → ∃ t, exec .tapPhaseEnd s = .next t ∧
      (∃ y, t.grid.tap = some y ∧ y.phase = x.phase + 1 ∧ y.tick = 0 ∧ y.sumV = x.sumV ∧ y.sumI = x.sumI) ∧
      Keeps (touches [] [.grid]) s t) ∧
    (∀ (x : Tap) (v c : Fin 4 → Int) (ok : Prop), s.grid.tap = some x → s.tapTicks x.phase ≤ x.tick → 3 ≤ x.phase →
      (∀ i, v i = roundDiv x.sumV[i] (s.get R.GF_TAP_TAP_LEN_M1 + 1)) →
      (∀ i, c i = roundDiv x.sumI[i] (s.get R.GF_TAP_TAP_LEN_M1 + 1)) →
      (ok ↔ 256 * s.get R.GF_DI_MIN_DI_MIN ≤ (c 1 - c 2).natAbs ∧ (v 3 - v 0).natAbs ≤ 256 * s.get R.GF_REST_V_REST_V ∧
        (c 3 - c 0).natAbs ≤ 256 * s.get R.GF_REST_I_REST_I) → ∃ t, exec .tapPhaseEnd s = .next t ∧
      t.grid.tap = none ∧ t.flag R.GF_STATUS_TAP_BUSY = false ∧
      (ok → t.get R.GF_STATUS_EST = 0 ∧ t.grid.estAt = s.age ∧
        (c 1 ≠ c 2 → t.grid.z = sat40 (roundDiv (if c 2 < c 1 then (v 1 - v 2) * 2 ^ 32 else -((v 1 - v 2) * 2 ^ 32))
          (c 1 - c 2).natAbs)) ∧
        t.grid.e = sat40 (roundDiv (v 0 + v 3) 2 - roundDiv (t.grid.z.toInt * roundDiv (c 0 + c 3) 2) (2 ^ 32)) ∧
        (s.gfuOn = true → s.bit R.GF_CTRL_TEST_EN 3 = true → 256 * (s.get R.GF_ZI_LIM_ZI_LIM : Int) < t.grid.z.toInt →
          t.flag R.GF_STATUS_ISLANDED = true ∧ t.bit R.GF_STATUS_ISL_TEST 3 = true)) ∧
      (¬ ok → t.grid.z = s.grid.z ∧ t.grid.e = s.grid.e ∧ t.get R.GF_STATUS_EST = s.get R.GF_STATUS_EST) ∧
      Keeps (touches [R.GF_STATUS_ACTION.addr] [.grid, .metering, .free]) s t) ∧
    (∀ (u : State), u = s.reachAge (s.grid.estAt + s.get R.GF_STARVE_STARVE_T * 125000000) →
      (s.gfuOn = false ∨ s.get R.GF_STATUS_EST ≠ 0 → exec .estStarve s = .next s) ∧
      (s.gfuOn = true → s.get R.GF_STATUS_EST = 0 → ∃ t, exec .estStarve s = .next t ∧
        (s.unpredRegs = [] → t.get R.GF_STATUS_EST = 1 ∧ t.grid.estAt = u.age) ∧
        Keeps (touches [R.GF_STATUS_ACTION.addr] [.grid]) u t)) ∧
    (∀ (u : State), u = s.reachAge (s.grid.estAt + s.get R.GF_STARVE_STALE_T * 125000000) →
      (s.gfuOn = false ∨ s.get R.GF_STATUS_EST ≠ 1 → exec .estStale s = .next s) ∧
      (s.gfuOn = true → s.get R.GF_STATUS_EST = 1 → ∃ t, exec .estStale s = .next t ∧
        (s.unpredRegs = [] → t.get R.GF_STATUS_EST = 2 ∧ t.grid.estAt = u.age) ∧
        Keeps (touches [R.GF_STATUS_ACTION.addr] [.grid]) u t)) ∧
    (∀ (k : Fin 8), s.flag (R.MP_CTRL_EN k) = false ∨ (s.string k).tick < s.get (R.MP_CTRL_MSTEP_T k) ∨ (s.string k).tick = 0 →
      exec (.mpptStep k) s = .next s) ∧
    (∀ (k : Fin 8) (x : MpptString) (v c w step tol : Int) (capped : Bool) (move : Int → Word), x = s.string k →
      s.flag (R.MP_CTRL_EN k) = true → s.get (R.MP_CTRL_MSTEP_T k) ≤ x.tick → 0 < x.tick →
      v = roundDiv x.sumV x.tick → c = roundDiv x.sumI x.tick → w = roundDiv (v * c) (2 ^ 32) →
      capped = x.pcap.any (fun cap => decide ((cap : Int) < w)) → step = 256 * s.get (R.MP_STEP_STEP k) →
      tol = s.get (R.MP_TOL_TOL k) → (∀ d, move d = BitVec.ofNat 40 (clampInt (x.vref.toNat + d) (256 * s.get (R.MP_VMIN_VMIN k))
        (256 * s.get (R.MP_VMAX_VMAX k))).toNat) → ∃ t, exec (.mpptStep k) s = .next t ∧ (t.string k).tick = 0 ∧
      (t.string k).sumV = 0 ∧ (t.string k).sumI = 0 ∧ (t.string k).fresh = false ∧ (t.string k).stopped = false ∧
      (x.fresh = false ∨ x.stopped = true →
        t.get (R.MP_SKIP_SKIP_CNT k) = min 65535 (s.get (R.MP_SKIP_SKIP_CNT k) + 1) ∧ (t.string k).vref = x.vref ∧
        (t.string k).prev = x.prev ∧ t.flag (R.MP_CTRL_DIR k) = s.flag (R.MP_CTRL_DIR k)) ∧
      (x.fresh = true → x.stopped = false → (t.string k).prev = some (v, c, w) ∧ t.flag (R.MP_CTRL_CURTAIL k) = capped ∧
        t.get (R.MP_VREF_VREF k) = (t.string k).vref.toNat / 256 % 2 ^ 32 ∧
        (capped = true ∨ x.prev = none → (t.string k).vref = move step ∧ t.flag (R.MP_CTRL_DIR k) = s.flag (R.MP_CTRL_DIR k)) ∧
        (∀ q : Int × Int × Int, capped = false → x.prev = some q →
          (s.flag (R.MP_CTRL_ALG k) = false →
            t.flag (R.MP_CTRL_DIR k) = (s.flag (R.MP_CTRL_DIR k) != decide (w - q.2.2 < -(tol * 256))) ∧
            (t.string k).vref = move (if t.flag (R.MP_CTRL_DIR k) then step else -step)) ∧
          (s.flag (R.MP_CTRL_ALG k) = true → v = q.1 → (t.string k).vref = move (
            if ((c - q.2.1).natAbs : Int) ≤ tol * 256 then 0 else if 0 < c - q.2.1 then step else -step)) ∧
          (∀ d : Int, s.flag (R.MP_CTRL_ALG k) = true → v ≠ q.1 → d = c * (v - q.1) + v * (c - q.2.1) → (t.string k).vref =
            move (if (d.natAbs : Int) ≤ tol * 2 ^ 40 then 0 else if (0 < d) ↔ (0 < v - q.1) then step else -step)))) ∧
      (∀ j : Fin 8, j ≠ k → t.string j = s.string j) ∧ t.grid = { s.grid with strings := t.grid.strings } ∧
      Keeps (touches [(R.MP_CTRL_EN k).addr, (R.MP_VREF_VREF k).addr, (R.MP_SKIP_SKIP_CNT k).addr] [.grid]) s t) ∧
    (∀ (a : Agent) (on : Bool), on = s.flag R.GF_CTRL_EN ∨ s.mayEnable a 7 R.GF_CTRL_EN on = false →
      exec (.gfEn a on) s = .next s) ∧
    (∀ (a : Agent) (on : Bool), s.mayEnable a 7 R.GF_CTRL_EN on = true → on ≠ s.flag R.GF_CTRL_EN → ∃ t,
      exec (.gfEn a on) s = .next t ∧ t.flag R.GF_CTRL_EN = on ∧ (∀ k : Fin 16, t.grid.timers[k] = 0) ∧
      t.get R.GF_MEAS_AGE_NOW = 0 ∧ (on = true → t.get R.GF_STATUS_EST = 2) ∧
      (on = false → t.grid.tap = none ∧ t.get R.GF_STATUS_TRIP_CNT = 0 ∧ t.get R.GF_STATUS_TAP_ABN_CNT = 0 ∧
        t.action = (if s.flag R.GF_STATUS_TRIPPED then 3 else 0)) ∧
      Keeps (touches [R.GF_STATUS_ACTION.addr, R.GF_CTRL_EN.addr, R.GF_MEAS_AGE_NOW.addr] [.grid, .metering]) s t) ∧
    (∀ (a : Agent), (s.reaches a = true → exec (.tapNow a) s = .next { s with grid := { s.grid with tapNow := true } } ∧
        exec (.tripClr a) s = .next { s with grid := { s.grid with tripClr := true } } ∧
        exec (.islClr a) s = .next { s with grid := { s.grid with islClr := true } }) ∧
      (s.reaches a = false → exec (.tapNow a) s = .next s ∧ exec (.tripClr a) s = .next s ∧ exec (.islClr a) s = .next s)) ∧
    (∀ (k : Fin 8) (a : Agent) (on : Bool), (s.mayEnable a 7 (R.MP_CTRL_EN k) on = false → exec (.mpEn k a on) s = .next s) ∧
      (s.mayEnable a 7 (R.MP_CTRL_EN k) on = true → ∃ t, exec (.mpEn k a on) s = .next t ∧ t.flag (R.MP_CTRL_EN k) = on ∧
        (on = true → s.flag (R.MP_CTRL_EN k) = false → t.flag (R.MP_CTRL_DIR k) = true ∧
          t.get (R.MP_VREF_VREF k) = s.get (R.MP_VSTART_VSTART k) ∧
          t.string k = { tick := 0, vref := BitVec.ofNat 40 (256 * s.get (R.MP_VSTART_VSTART k)) }) ∧
        (on = false ∨ s.flag (R.MP_CTRL_EN k) = true → t = s.setFlag (R.MP_CTRL_EN k) on) ∧
        (∀ j : Fin 8, j ≠ k → t.string j = s.string j) ∧
        Keeps (touches [(R.MP_CTRL_EN k).addr, (R.MP_VREF_VREF k).addr] [.grid]) s t))

/-- At a frame instant (reached first) the frame waits for its close with its length and the wheel angle, and the next is
placed: FREE_T later, or where the wheel places it at the first target, a multiple of a block's share of a turn, at least
half a step ahead; MODE tells which. At its close the oldest frame leaves: LIVE tells whether no input missed it, a gap
counts, and it enters the block with its length, a valid one in high range with its power; the last of a block ends it; a
gain in FALLBACK takes the factory value, and without a complete tap the others stay. An estimator goes from FRESH to
STARVED to FALLBACK. EN starts the engine in high range with fallback gains, or stops it. CLR zeroes accumulators, residues
and pulse books, but for credits of this very tick. A pulse of an owned EPLS starts PLS_W after the last, spends one pending
and lasts PLS_W. A sample of the backup front end, with VBAT in its range, counts while LIVE is 0 from the threshold on; its
CLR leaves what the same tick added. Without a frame placed or waiting, and for a write that the lock refuses, nothing
happens. -/
def Obligations.TheMeterPlacesClosesAndCounts : Prop :=
  ∀ (s : State),
    (s.mtr.next = none → exec .frameInstant s = .next s) ∧
    (∀ (at_ : Nat) (sync : Bool) (target : Nat) (u : State), s.mtr.next = some (at_, sync, target) → u = s.reachAge at_ → ∃ t,
      exec .frameInstant s = .next t ∧ (∃ g, t.mtr.waiting = u.mtr.waiting ++ [g] ∧ g.at_ = u.age ∧ g.sync = sync ∧
        g.target = target ∧ g.angle = u.angle ∧ g.delta = (if u.mtr.first then 0 else u.age - u.mtr.prevAt)) ∧
      (u.mtrSync = false → t.mtr.next = some (u.age + u.get R.M_FREE_FREE_T, false, 0) ∧ t.get R.MTR_STATUS_MODE = 1) ∧
      (u.mtrSync = true → t.get R.MTR_STATUS_MODE = 2 ∧
        ∃ d g, t.mtr.next = some (u.age + (d * 32000 + u.freq - 1) / u.freq, true, g) ∧ g = (u.angle + d) % 2 ^ 32 ∧
        g % (2 ^ 32 / u.nf) = 0 ∧ 2 ^ 32 / u.nf / 2 ≤ d ∧ d < 2 ^ 32 / u.nf / 2 + 2 ^ 32 / u.nf) ∧
      Keeps (touches [R.MTR_STATUS_MODE.addr] [.metering]) u t) ∧
    (s.mtr.waiting = [] → exec .frameClose s = .next s) ∧
    (∀ (f : MtrFrame) (rest : List MtrFrame) (u : State), s.mtr.waiting = f :: rest →
      u = s.reachAge (f.at_ + s.get R.M_WAIT_WAIT) → ∃ t, exec .frameClose s = .next t ∧ t.mtr.waiting = rest ∧
      t.flag R.MTR_STATUS_LIVE = (u.missing f).isNone ∧
      ((u.missing f).isSome = true → t.get R.MTR_CNT0_GAP_FRAMES = min (2 ^ 32 - 1) (u.get R.MTR_CNT0_GAP_FRAMES + 1)) ∧
      (f.last = false → t.mtr.block.frames = u.mtr.block.frames + 1 ∧ t.mtr.block.dur = u.mtr.block.dur + f.delta ∧
        t.mtr.blocks = u.mtr.blocks ∧ (∀ i, t.macc i = u.macc i) ∧
        t.mtr.block.valid = u.mtr.block.valid + (if (u.missing f).isNone then 1 else 0) ∧
        ((u.missing f).isNone = true → (∀ ph : Fin 3, u.inLow ph = false) → t.mtr.block.p = u.mtr.block.p +
          (u.mtrX 0 f * u.mtrX 3 f + u.mtrX 1 f * u.mtrX 4 f + u.mtrX 2 f * u.mtrX 5 f) * f.delta)) ∧
      (f.last = true → t.mtr.block = {} ∧ t.mtr.blocks = u.mtr.blocks + 1) ∧
      (∀ ph : Fin 3, (t.mtrEst ph = 2 → t.get (R.LG_G ph) = t.get (R.LG_FACT_FACT ph)) ∧
        (u.mtrEst ph ≠ 2 → (∀ x ∈ u.mtr.taps, x.ended = false) → t.get (R.LG_G ph) = u.get (R.LG_G ph))) ∧
      Keeps { parts := [.metering], regs := fun a => decide (0x9910 ≤ a ∧ a < 0x9B00) } u t) ∧
    (∀ (ph : Fin 3), 2 ≤ s.mtrEst ph → exec (.mtrEstTimeout ph) s = .next s) ∧
    (∀ (ph : Fin 3) (st : Nat) (u : State), s.mtrEst ph = st → st < 2 → u = s.reachAge (s.mtr.estAt[ph] +
      s.get (if st = 0 then R.MG_STARVE_M_STARVE_T else R.MG_STARVE_M_STALE_T) * 125000000) → ∃ t,
      exec (.mtrEstTimeout ph) s = .next t ∧ t.mtrEst ph = st + 1 ∧ t.mtr.estAt[ph] = u.age ∧
      (∀ k : Fin 3, k ≠ ph → t.mtrEst k = u.mtrEst k) ∧ Keeps (touches [R.MG_STATUS_EST.addr] [.metering]) u t) ∧
    (∀ (a : Agent), s.mayEnable a 8 R.MTR_CTRL_EN true = true → s.mtrOn = false → ∃ t, exec (.mtrEn a true) s = .next t ∧
      t.mtrOn = true ∧ t.mtr.next.isSome = true ∧ t.mtr.first = true ∧ t.mtr.waiting = [] ∧ t.mtr.blocks = 0 ∧
      t.mtr.block = {} ∧ t.mtr.taps = [] ∧ t.get R.MTR_STATUS_RANGE_L = 0 ∧
      (∀ ph : Fin 3, t.mtrEst ph = 2 ∧ t.get (R.LG_G ph) = s.get (R.LG_FACT_FACT ph)) ∧
      t.get R.MTR_STATUS_MODE = (if s.mtrSync then 2 else 1) ∧
      (s.mtr.reported = false → s.f0.entries.length < 20 → Staged t.f0 0x606 s.time)) ∧
    (∀ (a : Agent), s.mayEnable a 8 R.MTR_CTRL_EN false = true → s.mtrOn = true → ∃ t, exec (.mtrEn a false) s = .next t ∧
      t.mtrOn = false ∧ t.mtr.next = none ∧ t.mtr.waiting = [] ∧ t.flag R.MTR_STATUS_LIVE = false ∧
      t.get R.MTR_STATUS_MODE = 0 ∧ Keeps (touches [R.MTR_CTRL_EN.addr, R.MTR_STATUS_MODE.addr] [.metering]) s t) ∧
    (∀ (a : Agent) (on : Bool), on = s.mtrOn ∨ s.mayEnable a 8 R.MTR_CTRL_EN on = false → exec (.mtrEn a on) s = .next s) ∧
    (∀ (a : Agent), (s.mayWrite a 8 = false → exec (.mtrClr a) s = .next s) ∧ (s.mayWrite a 8 = true → ∃ t,
      exec (.mtrClr a) s = .next t ∧ (s.mtr.creditAt ≠ some (s.age - s.fine) → t.get R.PLS_STATUS_PLS_CREDIT = 0 ∧
        t.get R.PLS_STATUS_PLS_PEND = 0) ∧
      (∀ i : Fin 16, s.mtr.creditAt ≠ some (s.age - s.fine) ∨ s.mtr.credits.all (fun c => c.1 != i) = true →
        t.macc i = 0 ∧ t.mtr.residue[i] = 0) ∧ t.mtr.block = s.mtr.block ∧
      Keeps { parts := [.metering], regs := fun a => a == R.PLS_STATUS_PLS_PEND.addr || decide (0x9A00 ≤ a ∧ a < 0x9B00) } s t)) ∧
    (s.flag R.PLS_CTRL_EN = false ∨ s.eplsOwned = false ∨ s.mtr.epls = true ∨ s.get R.PLS_STATUS_PLS_PEND = 0 →
      exec .eplsPulseStart s = .next s) ∧
    (∀ (u : State), (∀ x, s.mtr.eplsAt = some x → u = s.reachAge (x + s.get R.PLS_W_PLS_W * 1250000)) →
      (s.mtr.eplsAt = none → u = s) → s.flag R.PLS_CTRL_EN = true → s.ownerMeter.isSome = true → s.sup.inReset = false →
      s.mtr.epls = false → s.get R.PLS_STATUS_PLS_PEND ≠ 0 → ∃ t, exec .eplsPulseStart s = .next t ∧
      t.get R.PLS_STATUS_PLS_PEND = u.get R.PLS_STATUS_PLS_PEND - 1 ∧ t.mtr.epls = true ∧
      (u.mtr.epls = false → t.mtr.eplsAt = some u.age) ∧
      Keeps (touches [R.PLS_STATUS_PLS_PEND.addr] [.metering]) u t) ∧
    (s.mtr.epls = false ∨ s.mtr.eplsAt = none → exec .eplsPulseEnd s = .next s) ∧
    (∀ (x : Nat) (u : State), s.mtr.epls = true → s.mtr.eplsAt = some x → u = s.reachAge (x + s.get R.PLS_W_PLS_W * 1250000) →
      ∃ t, exec .eplsPulseEnd s = .next t ∧ t.mtr.epls = false ∧ (u.mtr.epls = true → t.mtr.eplsAt = some u.age) ∧
      Keeps (touches [] [.metering]) u t) ∧
    (∀ (line neutral : Int) (mv : Nat), (s.flag R.BK_CTRL_EN = false ∨ mv < 2200 ∨ 3600 < mv) → ∃ t,
      exec (.bkSample line neutral mv) s = .next t ∧ t.sup = { s.sup with vbatMv := mv } ∧
      (s.sup.inReset = false → t.flag R.SUP_STATUS_VBAT_OK = decide (2200 ≤ mv)) ∧
      Keeps (touches [R.SUP_STATUS_VBAT_OK.addr] [.supervision]) s t) ∧
    (∀ (line neutral l n : Int) (mv : Nat) (cl cn : Prop), s.flag R.BK_CTRL_EN = true → 2200 ≤ mv → mv ≤ 3600 →
      l = roundDiv (line * s.get R.BK_GAIN_L_GAIN_L) (2 ^ 24) → n = roundDiv (neutral * s.get R.BK_GAIN_N_GAIN_N) (2 ^ 24) →
      (cl ↔ s.flag R.MTR_STATUS_LIVE = false ∧ s.get R.BK_CTRL_BK_THR ≤ l.natAbs) →
      (cn ↔ s.flag R.MTR_STATUS_LIVE = false ∧ s.get R.BK_CTRL_BK_THR ≤ n.natAbs) → ∃ t,
      exec (.bkSample line neutral mv) s = .next t ∧
      (cl → t.uq R.UQ_L_LO_UQ_L R.UQ_L_HI_UQ_L = min (2 ^ 48 - 1) (s.uq R.UQ_L_LO_UQ_L R.UQ_L_HI_UQ_L + l.natAbs)) ∧
      (¬ cl → t.uq R.UQ_L_LO_UQ_L R.UQ_L_HI_UQ_L = s.uq R.UQ_L_LO_UQ_L R.UQ_L_HI_UQ_L) ∧
      (cn → t.uq R.UQ_N_LO_UQ_N R.UQ_N_HI_UQ_N = min (2 ^ 48 - 1) (s.uq R.UQ_N_LO_UQ_N R.UQ_N_HI_UQ_N + n.natAbs)) ∧
      (¬ cn → t.uq R.UQ_N_LO_UQ_N R.UQ_N_HI_UQ_N = s.uq R.UQ_N_LO_UQ_N R.UQ_N_HI_UQ_N) ∧
      ((cl ∨ cn) → s.mtr.bkCounted = false → t.get R.BK_TIME_SECONDS = min (2 ^ 32 - 1) (s.get R.BK_TIME_SECONDS + 1)) ∧
      (¬ cl ∧ ¬ cn ∨ s.mtr.bkCounted = true → t.get R.BK_TIME_SECONDS = s.get R.BK_TIME_SECONDS) ∧
      t.mtr.bkPhase = (s.mtr.bkPhase + 1) % 4096 ∧ t.sup.vbatMv = mv ∧
      Keeps (touches [R.SUP_STATUS_VBAT_OK.addr, R.UQ_L_LO_UQ_L.addr, R.UQ_L_HI_UQ_L.addr, R.UQ_N_LO_UQ_N.addr,
        R.UQ_N_HI_UQ_N.addr, R.BK_TIME_SECONDS.addr] [.metering, .supervision]) s t) ∧
    (∀ (a : Agent), (s.mayWrite a 8 = false → exec (.bkClr a) s = .next s) ∧ (s.mayWrite a 8 = true → ∃ t,
      exec (.bkClr a) s = .next t ∧ t.uq R.UQ_L_LO_UQ_L R.UQ_L_HI_UQ_L = s.tick.bk.1 % 2 ^ 48 ∧
      t.uq R.UQ_N_LO_UQ_N R.UQ_N_HI_UQ_N = s.tick.bk.2.1 % 2 ^ 48 ∧ t.get R.BK_TIME_SECONDS = s.tick.bk.2.2 % 2 ^ 32 ∧
      Keeps (touches [R.UQ_L_LO_UQ_L.addr, R.UQ_L_HI_UQ_L.addr, R.UQ_N_LO_UQ_N.addr, R.UQ_N_HI_UQ_N.addr,
        R.BK_TIME_SECONDS.addr]) s t))

/-- At the first tick after a commit each fan takes its request: 0 turns it off, another spins up one that is off; a coil
its bit, unless forced off by its source or the safe state; the discharge is on while requested, triggered or in the safe
state. A level of a tach input is taken; a falling one that 1,000 samples agree on is a valid edge, as time passes; enough
of them in time bring RUN. FCS samples, 10 µs apart, average over 64; a current out of band in TACHLESS stalls. SPIN_T in
SPIN and TLOSS_T in RUN end in TACHLESS, or a stall with the current out of band: a pause for another kick, or FAULT after
three; a pause ends in SPIN. A period of FPWM takes the drive of the state. A coil holds after PULL_T, and turns on HS_LEAD
after its high side; a due turn-off that alone is due is performed where the clamp has room, which gains its energy; one for
which there never is room stays due. A force-off takes the request. A trigger turns the discharge on a tick later, noted, at
full power; the tick that would bring D above the cap cuts it, half the cap clears the cut where D stays below; FAIL after
DSCH_T without DONE; DSCH_CLR clears the trigger. A fan or coil that has left the state of a time by its end stays as it is,
and otherwise each of these does nothing. -/
def Obligations.AuxiliaryDrivesFollowRequestsAndLimits : Prop :=
  ∀ (s : State),
    (∀ (u : State), u = s.afterCommit s.auxOwners → ∃ t, exec .auxRequestApply s = .next t ∧ t.age = u.age ∧
      (∀ n : Fin 4, (t.fan n).req = u.fanReq n ∧
        (u.fanReq n = 0 → t.fanState n = fanOff ∧ t.get (R.FAN_STATUS_KICKS n) = 0) ∧
        (u.fanReq n ≠ 0 → t.fanState n = if u.fanState n = fanOff then fanSpin else u.fanState n)) ∧
      (∀ n : Fin 8, (t.coil n).cmd = (u.owner (R.OWN_COIL n)).any (fun e => (Cells.get 0 0x24394 (u.ez e).outs).getLsbD n.val) ∧
        (u.flag (R.COIL_CFG_FOFF_EN n) = false → (t.coil n).req = ((t.coil n).cmd &&
          !(u.flag R.SAFE_STATUS_SAFE_STATE && u.flag R.SAFE_CTRL_COILS))) ∧
        ((t.coil n).req = true → (u.coil n).req = false → (t.coil n).energised = true ∧ (t.coil n).due = none ∧
          ((u.coil n).energised = false → (t.coil n).since = u.age)) ∧
        ((t.coil n).req = false → (u.coil n).req = true → (u.coil n).energised = true →
          (t.coil n).energised = false ∨ (t.coil n).due = some u.age)) ∧
      t.aux.dschReq = (u.owner R.OWN_AUX0_DISCHG).any (fun e => (Cells.get 0 0x24395 (u.ez e).outs).getLsbD 0) ∧
      t.flag R.DSCH_STATUS_ON = (t.aux.dschReq || t.flag R.DSCH_STATUS_TRIG || t.aux.dschSafe) ∧ Keeps auxTouches u t) ∧
    (∀ (n : Fin 4) (level : Bool), ((s.fan n).pin = level → exec (.tachEdge n level) s = .next s) ∧
      ((s.fan n).pin ≠ level → ∃ t, exec (.tachEdge n level) s = .next t ∧
        t.fan n = { s.fan n with pin := level, pinAt := s.coarseAt s.age } ∧ FanOnly s t n)) ∧
    (∀ (n : Fin 4) (u : State), (s.fan n).pin = false → (s.fan n).level = true → s.sup.inReset = false →
      s.age < (s.fan n).pinAt + 124875 → u = s.reachAge ((s.fan n).pinAt + 124875) → u.fine = 0 →
      (u.fan n).level = false ∧ (u.fan n).lastEdge = some u.age) ∧
    (∀ (n : Fin 4) (t : State) (edges : List Nat), t = s.fanEdge n → edges = (s.age :: (s.fan n).edges).take 4 →
      (t.fan n).lastEdge = some s.age ∧ (∀ x, (s.fan n).lastEdge = some x → (t.fan n).period = s.age / 125 - x / 125) ∧
      (s.fanState n = fanSpin → t.fanState n = if s.get (R.FAN_CFG_TACH_N_M1 n) + 1 ≤ edges.length ∧
        s.age ≤ (s.fan n).entry + s.get (R.FAN_TIME_SPIN_T n) * 125000000 then fanRun else fanSpin) ∧
      (s.fanState n = fanTachless → t.fanState n = if s.get (R.FAN_CFG_TACH_N_M1 n) + 1 ≤ edges.length ∧
        s.age ≤ edges.getD (s.get (R.FAN_CFG_TACH_N_M1 n)) 0 + s.get (R.FAN_TIME_SPIN_T n) * 125000000
        then fanRun else fanTachless) ∧
      (s.fanState n ≠ fanSpin → s.fanState n ≠ fanTachless → t.fanState n = s.fanState n) ∧
      (t.fanState n = s.fanState n → (t.fan n).edges = edges) ∧ FanOnly s t n) ∧
    (∀ (n : Fin 4) (code : BitVec 10) (u : State), (∀ x, (s.fan n).sampledAt = some x →
      u = s.reachAge (x + 125000 * max 1 ((s.age - x + 124999) / 125000))) → ((s.fan n).sampledAt = none → u = s.reachCoarse) →
      ∃ t, exec (.fcsSample n code) s = .next t ∧ (t.fan n).samples = (code :: (u.fan n).samples).take 64 ∧
      (t.fan n).sampledAt = some u.age ∧ t.fanAvg n = ((t.fan n).samples.foldl (fun k x => k + x.toNat) 0) / 64 % 1024 ∧
      (u.fanState n ≠ fanTachless ∨ (u.get (R.FAN_ILIM_I_LO n) ≤ t.fanAvg n ∧ t.fanAvg n ≤ u.get (R.FAN_ILIM_I_STALL n)) →
        t.fanState n = u.fanState n) ∧
      (u.fanState n = fanTachless → (t.fanAvg n < u.get (R.FAN_ILIM_I_LO n) ∨ u.get (R.FAN_ILIM_I_STALL n) < t.fanAvg n) →
        FanStalls u t n) ∧ FanOnly u t n) ∧
    (∀ (n : Fin 4) (u : State), u = s.reachAge ((s.fan n).entry + s.get (R.FAN_TIME_SPIN_T n) * 125000000) →
      (s.fanState n ≠ fanSpin → exec (.spinTEnd n) s = .next s) ∧
      (s.fanState n = fanSpin → ∃ t, exec (.spinTEnd n) s = .next t ∧ (u.fanState n ≠ fanSpin → t = u) ∧
        (u.fanState n = fanSpin → (u.fanInBand n = true → t.fanState n = fanTachless ∧ (t.fan n).entry = u.age) ∧
          (u.fanInBand n = false → FanStalls u t n) ∧ FanOnly u t n))) ∧
    (∀ (n : Fin 4) (u : State), u = s.reachAge ((s.fan n).lossFrom + s.get (R.FAN_TIME_TLOSS_T n) * 125000000) →
      (s.fanState n ≠ fanRun → exec (.tlossTEnd n) s = .next s) ∧
      (s.fanState n = fanRun → ∃ t, exec (.tlossTEnd n) s = .next t ∧
        (u.fanState n ≠ fanRun ∨ (u.fan n).lossFrom ≠ (s.fan n).lossFrom → t = u) ∧
        (u.fanState n = fanRun → (u.fan n).lossFrom = (s.fan n).lossFrom →
          (u.fanInBand n = true → t.fanState n = fanTachless ∧ (t.fan n).entry = u.age) ∧
          (u.fanInBand n = false → FanStalls u t n) ∧ FanOnly u t n))) ∧
    (∀ (n : Fin 4) (u : State), u = s.reachAge ((s.fan n).entry + s.get (R.FAN_TIME_PAUSE_T n) * 125000000) →
      (s.fanState n ≠ fanPause → exec (.pauseTEnd n) s = .next s) ∧
      (s.fanState n = fanPause → ∃ t, exec (.pauseTEnd n) s = .next t ∧ (u.fanState n ≠ fanPause → t = u) ∧
        (u.fanState n = fanPause → t.fanState n = fanSpin ∧ (t.fan n).entry = u.age ∧ (t.fan n).edges = [] ∧ FanOnly u t n))) ∧
    (∀ (n : Fin 4) (u : State), u = s.reachMultiple (125 * s.get (R.FAN_CFG_FPER n)) → ∃ t,
      exec (.fpwmPeriodStart n) s = .next t ∧ (t.fan n).force = (if u.fanState n = fanSpin then
          max (u.fan n).req (2 ^ 24 * u.get (R.FAN_CFG_KICK_D n))
        else if u.fanState n = fanRun ∨ u.fanState n = fanTachless then (u.fan n).req else 0) ∧
      ((t.fan n).high : Int) = roundDiv ((t.fan n).force * s.get (R.FAN_CFG_FPER n)) (2 ^ 32) ∧
      t.fanState n = u.fanState n ∧ FanOnly u t n) ∧
    (∀ (n : Fin 8) (u : State), u = s.reachAge ((s.coil n).since + s.get (R.COIL_CFG_PULL_T n) * 12500000) →
      ((s.coil n).energised = false ∨ (s.coil n).lead = true ∨ (s.coil n).hold = true → exec (.pullTEnd n) s = .next s) ∧
      ((s.coil n).energised = true → (s.coil n).lead = false → (s.coil n).hold = false → ∃ t, exec (.pullTEnd n) s = .next t ∧
        t.coil n = (if (u.coil n).energised = true ∧ (u.coil n).lead = false ∧ (u.coil n).hold = false ∧
          (u.coil n).since = (s.coil n).since then { u.coil n with hold := true, since := u.age } else u.coil n) ∧
        CoilOnly u t n)) ∧
    (∀ (n : Fin 8) (u : State), u = s.reachAge ((s.coil n).since + s.get R.COIL_PWM_HS_LEAD * 125) →
      ((s.coil n).energised = false ∨ (s.coil n).lead = false → exec (.hsLeadEnd n) s = .next s) ∧
      ((s.coil n).energised = true → (s.coil n).lead = true → ∃ t, exec (.hsLeadEnd n) s = .next t ∧
        t.coil n = (if (u.coil n).energised = true ∧ (u.coil n).lead = true ∧ (u.coil n).since = (s.coil n).since
          then { u.coil n with lead := false, since := u.age } else u.coil n) ∧ CoilOnly u t n)) ∧
    (∀ (n : Fin 8), (s.coil n).due = none → exec (.coilTurnOff n) s = .next s) ∧
    (∀ (n : Fin 8) (u : State), (s.coil n).due ≠ none → u = s.reachCoarse → ∃ t, exec (.coilTurnOff n) s = .next t ∧
      ((u.coil n).due = none ∨ u.clampWait n = none → t = u) ∧
      (∀ (k : Nat) (v : State), (u.coil n).due ≠ none → u.clampWait n = some k → v = u.elapse (125 * k) →
        (v.dueCoils (coilGroup n) = [n] → v.aux.clamp[coilGroup n] + 100000 * v.get (R.COIL_FB_FB_E n) ≤
            100000 * v.get (R.CLMP_CAP_CLAMP_CAP (coilGroup n)) →
          (t.coil n).energised = false ∧ (t.coil n).due = none ∧
          t.aux.clamp[coilGroup n] = v.aux.clamp[coilGroup n] + 100000 * v.get (R.COIL_FB_FB_E n) ∧ t.age = v.age ∧
          (∀ j : Fin 8, j ≠ n → t.coil j = v.coil j) ∧ Keeps auxTouches v t) ∧
        ((v.coil n).due = none → t.coil n = v.coil n ∧ t.age = v.age ∧ Keeps auxTouches v t))) ∧
    (∀ (n : Fin 8), s.flag (R.COIL_CFG_FOFF_EN n) = false ∨ s.source (s.get (R.COIL_CFG_FOFF_SRC n)) = false →
      exec (.coilForceOff n) s = .next s) ∧
    (∀ (n : Fin 8) (u : State), s.flag (R.COIL_CFG_FOFF_EN n) = true → s.source (s.get (R.COIL_CFG_FOFF_SRC n)) = true →
      u = s.reachCoarse → ∃ t, exec (.coilForceOff n) s = .next t ∧ t.age = u.age ∧
      (u.flag (R.COIL_CFG_FOFF_EN n) = true → u.source (u.get (R.COIL_CFG_FOFF_SRC n)) = true → (t.coil n).req = false ∧
        ((u.coil n).req = true → (u.coil n).energised = true →
          (t.coil n).energised = false ∨ (t.coil n).due = some u.age)) ∧ Keeps auxTouches u t) ∧
    (∀ (k : Fin 2), s.aux.trig[k] = none → exec (.dschTrigger k) s = .next s) ∧
    (∀ (k : Fin 2) (at_ : Nat) (u : State), s.aux.trig[k] = some at_ → u = s.reachAge (at_ + 125) → ∃ t,
      exec (.dschTrigger k) s = .next t ∧ t.aux.trig[k] = none ∧ t.flag R.DSCH_STATUS_TRIG = true ∧
      (u.flag R.DSCH_STATUS_TRIG = true → t.flag R.DSCH_STATUS_ON = u.flag R.DSCH_STATUS_ON) ∧
      (u.flag R.DSCH_STATUS_TRIG = false → t.flag R.DSCH_STATUS_ON = true ∧ t.flag R.DSCH_STATUS_HV_DISC = true ∧
        (u.flag R.DSCH_STATUS_ON = false → t.flag R.DSCH_STATUS_DONE = false ∧ t.flag R.DSCH_STATUS_FAIL = false ∧
          t.aux.w = u.get R.DSCH_PWR_DSCH_PWR * 1000 * 65536 ∧ t.aux.start = u.age) ∧
        (u.f0.entries.length < 30 → Staged t.f0 0x724 u.time)) ∧ Keeps (touches [R.DSCH_STATUS_ON.addr] [.aux]) u t) ∧
    (s.flag R.DSCH_STATUS_ON = false ∨ s.flag R.DSCH_STATUS_CUT = true ∨
      s.aux.d + s.aux.w ≤ s.get R.DSCH_CAP_DSCH_CAP * joule → exec .dschCut s = .next s) ∧
    (s.unpredRegs = [] → s.sup.inReset = false → s.fine < 125 → s.flag R.DSCH_STATUS_ON = true →
      s.flag R.DSCH_STATUS_CUT = false → s.dschWant = s.aux.dschReq →
      (s.aux.dschReq || s.flag R.DSCH_STATUS_TRIG || s.aux.dschSafe) = true →
      (s.flag R.DSCH_STATUS_DONE = true ∨ s.flag (R.CMP_STATUS_BELOW (s.get R.DSCH_CTRL_DONE_CMP)) = false) →
      s.get R.DSCH_CAP_DSCH_CAP * joule < s.aux.d + s.aux.w → ∃ t, exec .dschCut s = .next t ∧
      t.flag R.DSCH_STATUS_CUT = true ∧ t.dschHigh = false ∧
      t.get R.DSCH_CNT_CUT_CNT = min 255 (s.get R.DSCH_CNT_CUT_CNT + 1) ∧ t.age = s.age + (125 - s.fine)) ∧
    (s.flag R.DSCH_STATUS_CUT = false ∨ s.get R.DSCH_CAP_DSCH_CAP * joule < 2 * s.aux.d → exec .dschCutClear s = .next s) ∧
    (s.unpredRegs = [] → s.sup.inReset = false → s.fine < 125 → s.flag R.DSCH_STATUS_CUT = true →
      2 * s.aux.d ≤ s.get R.DSCH_CAP_DSCH_CAP * joule → ∃ t, exec .dschCutClear s = .next t ∧ t.age = s.age + (125 - s.fine) ∧
      (s.dschWant = s.aux.dschReq → s.flag R.DSCH_STATUS_ON = (s.aux.dschReq || s.flag R.DSCH_STATUS_TRIG || s.aux.dschSafe) →
        (s.flag R.DSCH_STATUS_ON = false ∨ s.aux.d + s.aux.w ≤ s.get R.DSCH_CAP_DSCH_CAP * joule) →
        t.flag R.DSCH_STATUS_CUT = false)) ∧
    (∀ (u : State), u = s.reachAge (s.aux.start + s.get R.DSCH_LEAK_DSCH_T * 12500000) →
      (s.flag R.DSCH_STATUS_ON = false ∨ s.flag R.DSCH_STATUS_DONE = true ∨ s.flag R.DSCH_STATUS_FAIL = true →
        exec .dschFail s = .next s) ∧
      (s.flag R.DSCH_STATUS_ON = true → s.flag R.DSCH_STATUS_DONE = false → s.flag R.DSCH_STATUS_FAIL = false → ∃ t,
        exec .dschFail s = .next t ∧ (u.aux.start ≠ s.aux.start ∨ u.flag R.DSCH_STATUS_DONE = true → t = u) ∧
        (u.aux.start = s.aux.start → u.flag R.DSCH_STATUS_DONE = false → t.flag R.DSCH_STATUS_FAIL = true ∧
          t.get R.DSCH_CNT_FAIL_CNT = min 255 (u.get R.DSCH_CNT_FAIL_CNT + 1) ∧
          Keeps (touches [R.DSCH_STATUS_ON.addr, R.DSCH_CNT_FAIL_CNT.addr]) u t))) ∧
    (∀ (a : Agent), (s.reaches a = false → exec (.dschClr a) s = .next s) ∧ (s.reaches a = true → ∃ t,
      exec (.dschClr a) s = .next t ∧ t.flag R.DSCH_STATUS_TRIG = false ∧ t.flag R.DSCH_STATUS_HV_DISC = false ∧
      t.flag R.DSCH_STATUS_ON = (s.aux.dschReq || s.aux.dschSafe) ∧ Keeps (touches [R.DSCH_STATUS_ON.addr] [.aux]) s t))

/-- Out of reset, a supply below its warning level for 200 ns, WDOSC within 5 %, shows in LOW and, out of hold, enters hold:
counted, noted, each leg without HOLD_ACT dark with the HOLD cause, each easel's record made valid with this time, passes
without a fault discarded. One at its resume level for 20 µs is restored; the last ends hold, and running easels wait for
their resume downbeat. A level changes that supply alone. Device reset is as DeviceResets says, for the device watchdog 1 ms
after its fault; nRST counts seconds held, ten bring RESET_STUCK. Release, 100 µs after the last supply rose above its reset
level, latches KILL_PIN where KILL is asserted and enters hold for supplies not restored. Boot ends once, with its results.
Backup power-on resets backup bits alone. A VBAT test, a second after the last, sets VBAT_OK, and VBAT_LOST where the
voltage drops (the voltage 0 before a measure is log entry 76's choice). A clock monitor trip enters the safe state and
faults each enabled watchdog on WDOSC. Otherwise each of these does nothing. -/
def Obligations.SuppliesResetsAndBootKeepTheirRules : Prop :=
  ∀ (s : State),
    (2375 ≤ s.onWdosc 2500 ∧ s.onWdosc 2500 ≤ 2625 ∧ 237500 ≤ s.onWdosc 250000 ∧ s.onWdosc 250000 ≤ 262500) ∧
    (∀ (k : Fin 4), s.sup.lowFrom[k] = none ∨ s.sup.inReset = true → exec (.supplyHoldEnter k) s = .next s) ∧
    (∀ (k : Fin 4) (x : Nat) (u : State), s.sup.lowFrom[k] = some x → s.sup.inReset = false →
      u = s.draw.reachAge (x + s.onWdosc 2500) → ∃ t, exec (.supplyHoldEnter k) s = .next t ∧ t.age = u.age ∧
      t.sup.restored[k] = false ∧ t.bit R.SUP_STATUS_LOW k.val = true ∧ t.hold = true ∧
      (∀ j : Fin 4, t.sup.supplies[j] = u.sup.supplies[j] ∧ (j ≠ k → t.sup.restored[j] = u.sup.restored[j])) ∧
      (u.hold = true → t.get R.SUP_STATUS_HOLD_CNT = u.get R.SUP_STATUS_HOLD_CNT ∧
        Keeps (touches [R.SUP_STATUS_LOW.addr] [.supervision]) u t) ∧
      (u.hold = false → t.get R.SUP_STATUS_HOLD_CNT = min 65535 (u.get R.SUP_STATUS_HOLD_CNT + 1) ∧
        (u.f0.entries.length < 29 → Staged t.f0 0x800 u.time) ∧
        (∀ l : Fin 64, u.flag (R.LEG_CFG_HOLD_ACT l) = false → t.bit (R.LEG_STATUS_CAUSE l) causeHold = true ∧
          (u.bit (R.LEG_STATUS_CAUSE l) causeHold = false → t.dark l)) ∧
        ∀ e : Fin 8, t.flag (R.CK_INFO_VALID e) = true ∧ t.flag (R.CK_INFO_RESET_AFTER e) = false ∧
          t.get (R.CK_TIME_LO_TIME_LO e) = u.time.toNat % 2 ^ 32 ∧ (t.ez e).resumeAt = none ∧
          ((u.ez e).pass.all (fun p => p.fault.isNone) = true → (t.ez e).pass = none))) ∧
    (∀ (k : Fin 4), s.sup.upFrom[k] = none ∨ s.sup.restored[k] = true →
      exec (.supplyResume k) s = .next s ∧ exec (.supplyRestored k) s = .next s) ∧
    (∀ (k : Fin 4) (x : Nat) (u : State), s.sup.upFrom[k] = some x → s.sup.restored[k] = false →
      u = s.draw.reachAge (x + s.onWdosc 250000) → ∃ t, exec (.supplyResume k) s = .next t ∧
      exec (.supplyRestored k) s = .next t ∧ t.age = u.age ∧ t.sup.restored[k] = true ∧ t.bit R.SUP_STATUS_LOW k.val = false ∧
      (∀ j : Fin 4, t.sup.supplies[j] = u.sup.supplies[j] ∧ (j ≠ k → t.sup.restored[j] = u.sup.restored[j])) ∧
      (u.hold = true → (∀ j : Fin 4, j ≠ k → u.sup.restored[j] = true) → t.hold = false ∧
        (u.f0.entries.length < 30 → Staged t.f0 0x801 u.time) ∧
        (∀ e : Fin 8, u.run e = true → (t.ez e).resumeAt = some u.age) ∧
        ∀ l : Fin 64, (u.ownerLeg l).all (fun e => !u.run e) = true → t.bit (R.LEG_STATUS_CAUSE l) causeHold = false) ∧
      (u.hold = false ∨ (∃ j : Fin 4, j ≠ k ∧ u.sup.restored[j] = false) → t.hold = u.hold ∧
        Keeps (touches [R.SUP_STATUS_LOW.addr] [.supervision]) u t)) ∧
    (∀ (k : Fin 4) (level : SupplyLevel), ∃ t, exec (.supplyLevelCross k level) s = .next t ∧ t.sup.supplies[k] = level ∧
      t.sup.restored[k] = (level == .aboveResume && s.sup.restored[k]) ∧
      (lowLevel level = true → t.sup.lowFrom[k] = if lowLevel s.sup.supplies[k] then s.sup.lowFrom[k] else some s.age) ∧
      (lowLevel level = false → t.sup.lowFrom[k] = none) ∧
      (level = .aboveResume → t.sup.upFrom[k] = if s.sup.supplies[k] = .aboveResume then s.sup.upFrom[k] else some s.age) ∧
      (level ≠ .aboveResume → t.sup.upFrom[k] = none) ∧
      (s.sup.supplies[k] = .belowReset → level ≠ .belowReset → t.sup.releaseFrom = some s.age) ∧
      (∀ j : Fin 4, j ≠ k → t.sup.supplies[j] = s.sup.supplies[j] ∧ t.sup.restored[j] = s.sup.restored[j] ∧
        t.sup.lowFrom[j] = s.sup.lowFrom[j] ∧ t.sup.upFrom[j] = s.sup.upFrom[j]) ∧
      Keeps (touches [] [.supervision, .adc]) s t) ∧
    (s.RegsInOrder → ∃ t, exec (.deviceReset .por) s = .next t ∧ DeviceResets s t .por) ∧
    (s.RegsInOrder → ∃ t, exec (.deviceReset .nrst) s = .next t ∧ exec .nrstAssert s = .next t ∧ DeviceResets s t .nrst) ∧
    (s.sup.inReset = true ∨ s.sup.supplies.toList.contains .belowReset = false → exec (.deviceReset .supply) s = .next s) ∧
    (s.RegsInOrder → s.sup.inReset = false → s.sup.supplies.toList.contains .belowReset = true → ∃ t,
      exec (.deviceReset .supply) s = .next t ∧ DeviceResets s t .supply) ∧
    (s.sup.dwdReset = none → exec (.deviceReset .dwd) s = .next s) ∧
    (∀ (x : Nat) (u : State), s.sup.dwdReset = some x → u = s.reachAge (x + 12500000) → u.RegsInOrder → ∃ t,
      exec (.deviceReset .dwd) s = .next t ∧ DeviceResets u t .dwd) ∧
    (s.sup.nrst = false → exec .nrstSecond s = .next s) ∧
    (s.sup.nrst = true → ∃ t, exec .nrstSecond s = .next t ∧
      t.get R.NRST_HELD_SECONDS = min 65535 (s.get R.NRST_HELD_SECONDS + 1) ∧
      t.flag R.RST_CAUSE_RESET_STUCK = (s.flag R.RST_CAUSE_RESET_STUCK || decide (9 ≤ s.get R.NRST_HELD_SECONDS)) ∧
      Keeps (touches [R.NRST_HELD_SECONDS.addr, R.RST_CAUSE_POR.addr]) s t) ∧
    (s.sup.inReset = false ∨ s.sup.supplies.toList.contains .belowReset = true → exec .resetRelease s = .next s) ∧
    (∀ (u : State), s.sup.inReset = true → s.sup.supplies.toList.contains .belowReset = false →
      (∀ x, s.sup.releaseFrom = some x → u = s.reachAge (x + 1250000)) → (s.sup.releaseFrom = none → u = s) → ∃ t,
      exec .resetRelease s = .next t ∧ t.age = u.age ∧ t.sup.inReset = false ∧ t.sup.nrst = false ∧
      t.flag R.SUP_STATUS_VBAT_OK = decide (2200 ≤ u.sup.vbatMv) ∧ t.tb.windowFrom = u.age ∧ t.tb.calFrom = u.age ∧
      (∀ k : Fin 4, t.bit R.SUP_STATUS_LOW k.val = !u.sup.restored[k]) ∧
      (u.flag R.SAFE_STATUS_KILL_IN = true → SafeEnters u t safeKillPin) ∧
      ((∃ k : Fin 4, u.sup.restored[k] = false) → t.hold = true ∧
        t.get R.SUP_STATUS_HOLD_CNT = min 65535 (u.get R.SUP_STATUS_HOLD_CNT + 1)) ∧
      ((∀ k : Fin 4, u.sup.restored[k] = true) → u.flag R.SAFE_STATUS_KILL_IN = false →
        Keeps (touches [R.SUP_STATUS_LOW.addr] [.supervision, .timebase]) u t)) ∧
    (∀ (fuseErr schedFail : Bool) (bist : BitVec 8),
      (s.sup.inReset = true ∨ s.flag R.BOOT_STATUS_DONE = true → exec (.bootDone fuseErr schedFail bist) s = .next s) ∧
      (s.sup.inReset = false → s.flag R.BOOT_STATUS_DONE = false → ∃ t, exec (.bootDone fuseErr schedFail bist) s = .next t ∧
        t.flag R.BOOT_STATUS_DONE = true ∧ t.flag R.BOOT_STATUS_FUSE_ERR = fuseErr ∧
        t.flag R.BOOT_STATUS_SCHED_FAIL = schedFail ∧ t.get R.BOOT_STATUS_BIST_FAIL = bist.toNat ∧
        Keeps (touches [R.BOOT_STATUS_DONE.addr]) s t)) ∧
    (s.RegsInOrder → ∃ t, exec .backupPowerOn s = .next t ∧
      (∀ a, (t.raw a).toNat &&& regBackup a = regReset a &&& regBackup a ∧
        (t.raw a).toNat - ((t.raw a).toNat &&& regBackup a) = (s.raw a).toNat - ((s.raw a).toNat &&& regBackup a)) ∧
      (∀ k : Fin 16, t.mtr.residue[k] = 0) ∧ t.easels = s.easels ∧ t.legs = s.legs ∧ t.sup = s.sup ∧ t.fuses = s.fuses ∧
      t.pods = s.pods ∧ t.time = s.time) ∧
    (∀ (before load : Nat), (s.charging = false → exec (.vbatTest before load) s = .next s) ∧
      (∀ (u : State), s.charging = true → u = s.toVbatTest → ∃ t, exec (.vbatTest before load) s = .next t ∧
        (∀ x, s.sup.vbatAt = some x → x + 12500000000 ≤ t.age) ∧ t.age = u.age ∧ t.sup.vbatMv = load ∧
        t.sup.vbatAt = some u.age ∧ t.flag R.SUP_STATUS_VBAT_OK = decide (2200 ≤ load) ∧
        t.flag R.SUP_STATUS_VBAT_LOST = (u.flag R.SUP_STATUS_VBAT_LOST || decide (load + 200 < before) || decide (load < 2200)) ∧
        (load + 200 < before ∨ load < 2200 →
          t.get R.SUP_STATUS_VBAT_LOST_CNT = min 255 (u.get R.SUP_STATUS_VBAT_LOST_CNT + 1) ∧
          (u.f0.entries.length < 30 → Staged t.f0 0x804 u.time)) ∧
        (¬(load + 200 < before ∨ load < 2200) → t.get R.SUP_STATUS_VBAT_LOST_CNT = u.get R.SUP_STATUS_VBAT_LOST_CNT) ∧
        Keeps (touches [R.SUP_STATUS_LOW.addr] [.supervision]) u t)) ∧
    (∀ (c : Fin 3), (s.sup.inReset = true ∨ s.flag R.SUP_STATUS_CLKMON = true → exec (.clkmon c) s = .next s) ∧
      (s.sup.inReset = false → s.flag R.SUP_STATUS_CLKMON = false → ∃ t, exec (.clkmon c) s = .next t ∧
        t.flag R.SUP_STATUS_CLKMON = true ∧ SafeEnters s t safeClkmon ∧
        (∀ w : Fin 9, s.flag (wdEn w) = true → s.flag (wdClk w) = false → t.get (wdLast w) = 4 ∧ t.get (wdT w) = 0 ∧
          ∀ e : Fin 8, e.val = w.val → (t.ez e).reset.isSome = true) ∧
        (∀ w : Fin 9, s.flag (wdEn w) = false ∨ s.flag (wdClk w) = true → t.get (wdT w) = s.get (wdT w))))

/-- EN = 1 of a watchdog starts T at 0, once; bounds out of range are a host error. A key of the agent that serves it: none
counts in the tick of a LATE fault; at CLOSE it is a LATE fault, a wrong key WRONG, before OPEN EARLY; else T is 0 and
nothing else changes. A watchdog that reaches CLOSE faults LATE. A fault of the device watchdog with RST resets the device 1
ms later. KILL shows its level, counts and latches KILL_PIN out of device reset; released, it only shows. SAFE_CLR from the
safety port clears, at the next tick, every cause but CLKMON, and KILL_PIN only without KILL. SP_LOCK and LOCK_SET lock at
the next tick. PROG burns a slot that is not provisioned with the digest in KEY_DATA, one burn at a time, else ERR; its end
provisions the slot; REVOKE, from the unlocked safety port, revokes. DBG.OPEN and BLOW work until DBG_LOCK is blown; opening
latches DEBUG, the blow closes. From any other agent, in device reset and in any other state each does nothing. -/
def Obligations.WatchdogsKillKeysAndDebugActAsStated : Prop :=
  ∀ (s : State),
    (∀ (w : Fin 9) (a : Agent), (s.mayWrite a 15 = false ∨ s.flag (wdEn w) = true → exec (.watchdogEnable w a) s = .next s) ∧
      (s.mayWrite a 15 = true → s.flag (wdEn w) = false → ∃ t, exec (.watchdogEnable w a) s = .next t ∧
        (s.wdRange w = true → t.flag (wdEn w) = true ∧ t.get (wdT w) = 0 ∧
          Keeps (touches [(wdEn w).addr, (wdT w).addr]) s t) ∧
        (s.wdRange w = false → (∀ e : Fin 8, e.val = w.val → (t.ez e).unpred = true) ∧
          (w.val = 8 → t.unpredRegs.contains (wdOpen w).addr = true)))) ∧
    (∀ (w : Fin 9) (a : Agent) (key : BitVec 32), s.wdServes w a = false ∨ s.sup.inReset = true ∨ s.flag (wdEn w) = false ∨
      s.sup.lateAt[w] = s.wdClockAt w s.age + 1 → exec (.watchdogKey w a key) s = .next s) ∧
    (∀ (w : Fin 9) (a : Agent) (key : BitVec 32), s.wdServes w a = true → s.sup.inReset = false → s.flag (wdEn w) = true →
      s.sup.lateAt[w] ≠ s.wdClockAt w s.age + 1 → ∃ t, exec (.watchdogKey w a key) s = .next t ∧
      (s.get (wdClose w) ≤ s.get (wdT w) → WatchdogFaults s t w 3) ∧
      (s.get (wdT w) < s.get (wdClose w) → key ≠ 0x6B3D94C2 → WatchdogFaults s t w 2) ∧
      (s.get (wdT w) < s.get (wdClose w) → key = 0x6B3D94C2 → s.get (wdT w) < s.get (wdOpen w) → WatchdogFaults s t w 1) ∧
      (s.get (wdT w) < s.get (wdClose w) → key = 0x6B3D94C2 → s.get (wdOpen w) ≤ s.get (wdT w) → t = s.set (wdT w) 0)) ∧
    (∀ (w : Fin 9), s.flag (wdEn w) = false ∨ s.wdHalted w = true ∨ s.sup.inReset = true →
      exec (.watchdogLate w) s = .next s) ∧
    (∀ (w : Fin 9), s.flag (wdEn w) = true → s.wdHalted w = false → s.sup.inReset = false → ∃ t,
      exec (.watchdogLate w) s = .next t ∧ WatchdogFaults (s.wdReach w) t w 3 ∧ t.age = (s.wdReach w).age ∧
      (s.flag (wdClk w) = true → t.age = max s.age ((s.age / 12500 + (s.get (wdClose w) - s.get (wdT w))) * 12500)) ∧
      (s.flag (wdClk w) = false → t.age = s.age)) ∧
    (s.sup.dwdReset = none → exec .dwdResetDelay s = .next s) ∧
    (∀ (x : Nat) (u : State), s.sup.dwdReset = some x → u = s.reachAge (x + 12500000) → u.RegsInOrder → ∃ t,
      exec .dwdResetDelay s = .next t ∧ DeviceResets u t .dwd ∧ t.age = max s.age (x + 12500000)) ∧
    (s.flag R.SAFE_STATUS_KILL_IN = true → exec .killAssert s = .next s) ∧
    (s.flag R.SAFE_STATUS_KILL_IN = false → ∃ t, exec .killAssert s = .next t ∧ t.flag R.SAFE_STATUS_KILL_IN = true ∧
      (s.sup.inReset = false → SafeEnters s t safeKillPin ∧
        t.get R.SAFE_STATUS_KILL_CNT = min 255 (s.get R.SAFE_STATUS_KILL_CNT + 1)) ∧
      (s.sup.inReset = true → t = s.setFlag R.SAFE_STATUS_KILL_IN true)) ∧
    exec .killDeassert s = .next (s.setFlag R.SAFE_STATUS_KILL_IN false) ∧
    (∀ (a : Agent), a ≠ .sp ∨ s.sup.inReset = true → exec (.safeClr a) s = .next s ∧ exec (.spLock a) s = .next s ∧
      (∀ k : Fin 4, exec (.keyRevoke a k) s = .next s) ∧ (∀ on : Bool, exec (.debugOpen a on) s = .next s) ∧
      exec (.debugBlow a) s = .next s) ∧
    (∀ (a : Agent), s.reaches a = false → (∀ g : BitVec 10, exec (.lockSet a g) s = .next s) ∧
      ∀ k : Fin 4, exec (.keyProg a k) s = .next s) ∧
    (s.sup.inReset = false → ∃ t, exec (.safeClr .sp) s = .next t ∧ t = { s with sup := { s.sup with safeClr := true } } ∧
      (s.unpredRegs = [] → s.fine < 125 → (t.elapse (125 - s.fine)).get R.SAFE_STATUS_CAUSE =
        s.get R.SAFE_STATUS_CAUSE &&& (16 + if s.flag R.SAFE_STATUS_KILL_IN then 2 else 0))) ∧
    (s.sup.inReset = false → ∃ t, exec (.spLock .sp) s = .next t ∧ t = { s with lockNext := s.lockNext ||| 0x8000 } ∧
      (s.unpredRegs = [] → s.fine < 125 → (t.elapse (125 - s.fine)).locked 15 = true ∧
        (t.elapse (125 - s.fine)).flag R.SP_LOCK_LOCKED = true)) ∧
    (∀ (a : Agent) (groups : BitVec 10), s.reaches a = true → ∃ t, exec (.lockSet a groups) s = .next t ∧
      t = { s with lockNext := s.lockNext ||| groups.setWidth 16 } ∧
      (s.unpredRegs = [] → s.fine < 125 → ∀ k : Fin 10, groups.getLsbD k.val = true →
        (t.elapse (125 - s.fine)).locked k.val = true)) ∧
    (∀ (a : Agent) (k : Fin 4), s.reaches a = true → ∃ t, exec (.keyProg a k) s = .next t ∧ t.get R.KEY_CTRL_SLOT = k.val ∧
      (s.fuses.prov.getLsbD k.val = true ∨ s.fuses.burn.isSome = true → t.flag R.KEY_STATUS_ERR = true ∧ t.fuses = s.fuses) ∧
      (s.fuses.prov.getLsbD k.val = false → s.fuses.burn = none → t.flag R.KEY_STATUS_BUSY = true ∧
        t.fuses = { s.fuses with burn := some (k, s.keyDigest) }) ∧
      Keeps (touches [R.KEY_CTRL_SLOT.addr, R.KEY_STATUS_BUSY.addr] [.fuses]) s t) ∧
    (s.fuses.burn = none → exec .keyBurnDone s = .next s) ∧
    (∀ (k : Fin 4) (d : BitVec 256), s.fuses.burn = some (k, d) → ∃ t, exec .keyBurnDone s = .next t ∧ t.fuses.burn = none ∧
      t.fuses.digests[k] = d ∧ t.fuses.prov = s.fuses.prov ||| BitVec.ofNat 4 (2 ^ k.val) ∧
      (∀ j : Fin 4, j ≠ k → t.fuses.digests[j] = s.fuses.digests[j]) ∧ t.flag R.KEY_STATUS_BUSY = false ∧
      t.fuses.revoked = s.fuses.revoked ∧ Keeps (touches [R.KEY_STATUS_BUSY.addr] [.fuses]) s t) ∧
    (∀ (k : Fin 4), (s.locked 15 = true → exec (.keyRevoke .sp k) s = .next s) ∧
      (s.sup.inReset = false → s.locked 15 = false → ∃ t, exec (.keyRevoke .sp k) s = .next t ∧
        t.fuses = { s.fuses with revoked := s.fuses.revoked ||| BitVec.ofNat 4 (2 ^ k.val) } ∧
        Keeps (touches [R.KEY_CTRL_SLOT.addr] [.fuses]) s t)) ∧
    (s.fuses.dbgLock = true → (∀ on : Bool, exec (.debugOpen .sp on) s = .next s) ∧ exec (.debugBlow .sp) s = .next s) ∧
    (∀ (on : Bool), s.sup.inReset = false → s.fuses.dbgLock = false → ∃ t, exec (.debugOpen .sp on) s = .next t ∧
      t.flag R.DBG_OPEN_ST = on ∧ (on = true → SafeEnters s t safeDebug) ∧
      (on = false → t = s.setFlag R.DBG_OPEN_ST false)) ∧
    (s.sup.inReset = false → s.fuses.dbgLock = false →
      exec (.debugBlow .sp) s = .next { s with sup := { s.sup with dbgBlow := true } }) ∧
    (s.sup.dbgBlow = false → exec .dbgLockBlown s = .next s) ∧
    (s.sup.dbgBlow = true → ∃ t, exec .dbgLockBlown s = .next t ∧ t.fuses = { s.fuses with dbgLock := true } ∧
      t.flag R.DBG_OPEN_ST = false ∧ t.sup.dbgBlow = false ∧
      Keeps (touches [R.DBG_OPEN_ST.addr] [.fuses, .supervision]) s t)

/-- Out of device reset each frame shifts out the response to the frame before; in device reset the port does nothing. A
frame whose CRC is bad is answered NAK 1, whatever its operation, and leaves no read or write open. NOP shifts the low half
of the last READ, else STATUS, after which easel-watchdog faults count anew. READ answers the high half of the value that
its address reads as for the safety port and keeps the low half. WRITE opens a write and answers STATUS; DATA_HI with its
SEQ takes the high half, and out of turn is NAK 2; DATA_LO with that SEQ writes the whole value as a write of the register
by the safety port does and answers ACK, or NAK 3 where the register takes no writes, or NAK 2 out of turn. KILL with its
code latches KILL_CMD and answers ACK, else NAK 3. Captures and everything beside the port stay as they are unless a read or
write of a register changes them. -/
def Obligations.TheSafetyPortAnswersEachFrame : Prop :=
  ∀ (s : State),
    (∀ (f : BitVec 32) (c : Instr), c ∈ ([.spNop f, .spRead f, .spWrite f, .dataHi f, .dataLo f, .kill f] : List Instr) →
      (s.sup.inReset = true → exec c s = .next s) ∧
      (s.sup.inReset = false → portOk f = false → ∃ t, exec c s = .next t ∧ t.sup.spReply = portFrame 4 1 (portSeq f) ∧
        t.sup.spOut = s.sup.spReply ∧ t.sup.spStage = .idle ∧ t.sup.spLow = none ∧ Keeps (touches [] [.supervision]) s t) ∧
      (s.sup.inReset = false → portOk f = true → (portOp f = 0 ∧ c ≠ .spNop f) ∨ (portOp f = 1 ∧ c ≠ .spRead f) ∨
        (portOp f = 2 ∧ c ≠ .spWrite f) ∨ (portOp f = 3 ∧ c ≠ .dataHi f) ∨ (portOp f = 4 ∧ c ≠ .dataLo f) ∨
        (portOp f = 5 ∧ c ≠ .kill f) ∨ 6 ≤ portOp f →
        exec c s = .next { s with sup := { s.sup with spOut := s.sup.spReply } })) ∧
    (∀ (f : BitVec 32), s.sup.inReset = false → portOk f = true → portOp f = 0 → ∃ t, exec (.spNop f) s = .next t ∧
      (∀ d, s.sup.spLow = some d → t.sup.spReply = portFrame 2 d.toNat (portSeq f)) ∧
      (s.sup.spLow = none → t.sup.spReply = portFrame 0 s.spStatus (portSeq f) ∧ t.sup.ewdFault = false) ∧
      t.sup.spOut = s.sup.spReply ∧ t.sup.spStage = .idle ∧ t.sup.spLow = none ∧ Keeps (touches [] [.supervision]) s t) ∧
    (∀ (f : BitVec 32) (k u : State) (v : BitVec 32), s.sup.inReset = false → portOk f = true → portOp f = 1 →
      k = { s with sup := { s.sup with spOut := s.sup.spReply } } →
      k.readRegister .sp (4 * (portAddr f).toNat) 0xF = (v, u) → ∃ t, exec (.spRead f) s = .next t ∧
      t.sup.spReply = portFrame 1 (v.toNat / 2 ^ 16) (portSeq f) ∧ t.sup.spLow = some (v.setWidth 16) ∧
      t.sup.spOut = s.sup.spReply ∧ t.sup.spStage = .idle ∧ Keeps (touches [] [.supervision]) u t) ∧
    (∀ (f : BitVec 32), s.sup.inReset = false → portOk f = true → portOp f = 2 → ∃ t, exec (.spWrite f) s = .next t ∧
      t.sup.spReply = portFrame 0 s.spStatus (portSeq f) ∧ t.sup.spStage = .writing (portAddr f) (portSeq f) ∧
      t.sup.spOut = s.sup.spReply ∧ t.sup.ewdFault = false ∧ Keeps (touches [] [.supervision]) s t) ∧
    (∀ (f : BitVec 32) (a : BitVec 14), s.sup.inReset = false → portOk f = true → portOp f = 3 →
      s.sup.spStage = .writing a (portSeq f) → ∃ t, exec (.dataHi f) s = .next t ∧
      t.sup.spReply = portFrame 0 s.spStatus (portSeq f) ∧ t.sup.spStage = .writingLo a (portSeq f) (portData f) ∧
      t.sup.spOut = s.sup.spReply ∧ Keeps (touches [] [.supervision]) s t) ∧
    (∀ (f : BitVec 32), s.sup.inReset = false → portOk f = true → portOp f = 3 → awaitsHi s.sup.spStage (portSeq f) = false →
      ∃ t, exec (.dataHi f) s = .next t ∧ t.sup.spReply = portFrame 4 2 (portSeq f) ∧ t.sup.spStage = .idle ∧
      Keeps (touches [] [.supervision]) s t) ∧
    (∀ (f : BitVec 32) (a : BitVec 14) (hi : BitVec 16) (k : State), s.sup.inReset = false → portOk f = true → portOp f = 4 →
      s.sup.spStage = .writingLo a (portSeq f) hi →
      k = { s with sup := { s.sup with spOut := s.sup.spReply, spStage := .idle, spLow := none } } →
      ∃ t, exec (.dataLo f) s = .next t ∧ t.sup.spStage = .idle ∧
      (portTakes (4 * a.toNat) = true → t.sup.spReply = portFrame 3 0 (portSeq f) ∧
        ∃ u, exec (.setupRegisterWrite .sp (BitVec.ofNat 24 (4 * a.toNat)) 0xF (hi ++ portData f)) k = .next u ∧
          Keeps (touches [] [.supervision]) u t) ∧
      (portTakes (4 * a.toNat) = false → t.sup.spReply = portFrame 4 3 (portSeq f) ∧
        Keeps (touches [] [.supervision]) s t)) ∧
    (∀ (f : BitVec 32), s.sup.inReset = false → portOk f = true → portOp f = 4 → awaitsLo s.sup.spStage (portSeq f) = false →
      ∃ t, exec (.dataLo f) s = .next t ∧ t.sup.spReply = portFrame 4 2 (portSeq f) ∧ t.sup.spStage = .idle ∧
      Keeps (touches [] [.supervision]) s t) ∧
    (∀ (f : BitVec 32), s.sup.inReset = false → portOk f = true → portOp f = 5 → portData f = 0x2A5C → ∃ t,
      exec (.kill f) s = .next t ∧ t.sup.spReply = portFrame 3 0 (portSeq f) ∧ SafeEnters s t safeKillCmd) ∧
    (∀ (f : BitVec 32), s.sup.inReset = false → portOk f = true → portOp f = 5 → portData f ≠ 0x2A5C → ∃ t,
      exec (.kill f) s = .next t ∧ t.sup.spReply = portFrame 4 3 (portSeq f) ∧ Keeps (touches [] [.supervision]) s t) ∧
    (∀ (a : Agent) (addr : BitVec 24) (be : BitVec 4), (s.sup.inReset = true → exec (.captureRead a addr be) s = .next s) ∧
      (s.sup.inReset = false → exec (.captureRead a addr be) s = .next (s.readRegister a addr.toNat be).2))
end

