-- ==== Sys2Proof/Laws/Cells.lean ====
section
/-! SUPPORT. Laws of the sparse store: read after write, and that every write keeps the canonical form. -/

namespace Sys2Proof.Cells

variable {α : Type}

theorem get_erase_same (d : α) (k : Nat) (l : Cells α) : get d k (erase k l) = d := by
  induction l with
  | nil => rfl
  | cons h t ih =>
    simp only [erase]
    split
    · exact ih
    · next hne => simp only [get, if_neg hne, ih]

theorem get_erase_other (d : α) (k j : Nat) (l : Cells α) (h : j ≠ k) : get d j (erase k l) = get d j l := by
  induction l with
  | nil => rfl
  | cons a t ih =>
    simp only [erase]
    split
    · next e => simp only [get]; rw [if_neg (by omega), ih]
    · simp only [get, ih]

theorem get_insert_same (d : α) (k : Nat) (v : α) (l : Cells α) (h : ∀ a w, (a, w) ∈ l → a ≠ k) :
    get d k (insert k v l) = v := by
  induction l with
  | nil => simp [insert, get]
  | cons a t ih =>
    obtain ⟨a, w⟩ := a
    simp only [insert]
    split
    · simp [get]
    · have hak := h a w (List.mem_cons_self ..)
      simp only [get, if_neg hak]
      exact ih fun b u hb => h b u (List.mem_cons_of_mem _ hb)

theorem get_insert_other (d : α) (k j : Nat) (v : α) (l : Cells α) (h : j ≠ k) :
    get d j (insert k v l) = get d j l := by
  induction l with
  | nil => simp only [insert, get]; rw [if_neg (by omega)]
  | cons a t ih =>
    obtain ⟨a, w⟩ := a
    simp only [insert]
    split
    · simp only [get]; rw [if_neg (by omega)]
    · simp only [get, ih]

theorem mem_erase (k : Nat) (l : Cells α) : ∀ a w, (a, w) ∈ erase k l → a ≠ k := by
  induction l with
  | nil => intro a w h; cases h
  | cons b t ih =>
    obtain ⟨b, u⟩ := b
    intro a w h
    simp only [erase] at h
    split at h
    · exact ih a w h
    · next hb =>
      rcases List.mem_cons.mp h with e | m
      · cases e; exact hb
      · exact ih a w m

/-- What was written is read back. -/
@[simp] theorem get_put_same [DecidableEq α] (d : α) (k : Nat) (v : α) (l : Cells α) : get d k (put d k v l) = v := by
  unfold put
  split
  · next e => rw [get_erase_same, e]
  · exact get_insert_same d k v _ (mem_erase k l)

/-- A write leaves every other place alone. -/
theorem get_put_other [DecidableEq α] (d e : α) (k j : Nat) (v : α) (l : Cells α) (h : j ≠ k) :
    get d j (put e k v l) = get d j l := by
  unfold put
  split
  · exact get_erase_other d k j l h
  · rw [get_insert_other d k j v _ h, get_erase_other d k j l h]

theorem rising_mono (b c : Nat) (l : Cells α) (h : c ≤ b) (hl : rising b l = true) : rising c l = true := by
  cases l with
  | nil => rfl
  | cons a t =>
    simp only [rising, Bool.and_eq_true, decide_eq_true_eq] at hl ⊢
    exact ⟨by omega, hl.2⟩

theorem rising_erase (b k : Nat) (l : Cells α) (h : rising b l = true) : rising b (erase k l) = true := by
  induction l generalizing b with
  | nil => rfl
  | cons a t ih =>
    obtain ⟨a, w⟩ := a
    simp only [rising, Bool.and_eq_true, decide_eq_true_eq] at h
    simp only [erase]
    split
    · exact rising_mono _ _ _ (by omega) (ih _ h.2)
    · simp only [rising, Bool.and_eq_true, decide_eq_true_eq]
      exact ⟨h.1, ih _ h.2⟩

theorem rising_insert (b k : Nat) (v : α) (l : Cells α) (hk : b ≤ k) (h : rising b l = true)
    (hn : ∀ a w, (a, w) ∈ l → a ≠ k) : rising b (insert k v l) = true := by
  induction l generalizing b with
  | nil => simp [insert, rising, hk]
  | cons a t ih =>
    obtain ⟨a, w⟩ := a
    have hak : a ≠ k := hn a w (List.mem_cons_self ..)
    simp only [rising, Bool.and_eq_true, decide_eq_true_eq] at h
    simp only [insert]
    split
    · simp only [rising, Bool.and_eq_true, decide_eq_true_eq]
      exact ⟨hk, by omega, h.2⟩
    · simp only [rising, Bool.and_eq_true, decide_eq_true_eq]
      exact ⟨h.1, ih (a + 1) (by omega) h.2 fun c u m => hn c u (List.mem_cons_of_mem _ m)⟩

/-- A write keeps the addresses rising. -/
theorem rising_put [DecidableEq α] (d : α) (k : Nat) (v : α) (l : Cells α) (h : rising 0 l = true) :
    rising 0 (put d k v l) = true := by
  unfold put
  split
  · exact rising_erase 0 k l h
  · exact rising_insert 0 k v _ (Nat.zero_le _) (rising_erase 0 k l h) (mem_erase k l)

theorem lean_erase [DecidableEq α] (d : Nat → α) (k : Nat) (l : Cells α) (h : lean d l = true) :
    lean d (erase k l) = true := by
  induction l with
  | nil => rfl
  | cons a t ih =>
    obtain ⟨a, w⟩ := a
    simp only [lean, Bool.and_eq_true, decide_eq_true_eq] at h
    simp only [erase]
    split
    · exact ih h.2
    · simp only [lean, Bool.and_eq_true, decide_eq_true_eq]; exact ⟨h.1, ih h.2⟩

theorem lean_insert [DecidableEq α] (d : Nat → α) (k : Nat) (v : α) (l : Cells α) (hv : v ≠ d k) (h : lean d l = true) :
    lean d (insert k v l) = true := by
  induction l with
  | nil => simp [insert, lean, hv]
  | cons a t ih =>
    obtain ⟨a, w⟩ := a
    simp only [lean, Bool.and_eq_true, decide_eq_true_eq] at h
    simp only [insert]
    split
    · simp only [lean, Bool.and_eq_true, decide_eq_true_eq]; exact ⟨hv, h⟩
    · simp only [lean, Bool.and_eq_true, decide_eq_true_eq]; exact ⟨h.1, ih h.2⟩

/-- A write with the right default keeps the canonical form. -/
theorem wf_put [DecidableEq α] (d : Nat → α) (k : Nat) (v : α) (l : Cells α) (h : wf d l = true) :
    wf d (put (d k) k v l) = true := by
  simp only [wf, Bool.and_eq_true] at h ⊢
  refine ⟨rising_put _ _ _ _ h.1, ?_⟩
  unfold put
  split
  · exact lean_erase d k l h.2
  · next hv => exact lean_insert d k v _ hv (lean_erase d k l h.2)

/-- The empty store is canonical. -/
theorem wf_nil [DecidableEq α] (d : Nat → α) : wf d ([] : Cells α) = true := rfl

end Sys2Proof.Cells
end

