-- ==== Sys2Proof/Laws/State.lean ====
section
/-! SUPPORT. What each update of the state leaves alone: one lemma per update and field. -/

namespace Sys2Proof.Machine

@[simp] theorem State.set_pending (s : State) (f : Fld) (x : Nat) : (s.set f x).pending = s.pending := rfl
@[simp] theorem State.set_time (s : State) (f : Fld) (x : Nat) : (s.set f x).time = s.time := rfl
@[simp] theorem State.set_age (s : State) (f : Fld) (x : Nat) : (s.set f x).age = s.age := rfl
@[simp] theorem State.set_fine (s : State) (f : Fld) (x : Nat) : (s.set f x).fine = s.fine := rfl
@[simp] theorem State.set_caps (s : State) (f : Fld) (x : Nat) : (s.set f x).caps = s.caps := rfl
@[simp] theorem State.set_lockNext (s : State) (f : Fld) (x : Nat) : (s.set f x).lockNext = s.lockNext := rfl
@[simp] theorem State.set_tick (s : State) (f : Fld) (x : Nat) : (s.set f x).tick = s.tick := rfl
@[simp] theorem State.set_tb (s : State) (f : Fld) (x : Nat) : (s.set f x).tb = s.tb := rfl
@[simp] theorem State.set_fuses (s : State) (f : Fld) (x : Nat) : (s.set f x).fuses = s.fuses := rfl
@[simp] theorem State.set_img (s : State) (f : Fld) (x : Nat) : (s.set f x).img = s.img := rfl
@[simp] theorem State.set_tiles (s : State) (f : Fld) (x : Nat) : (s.set f x).tiles = s.tiles := rfl
@[simp] theorem State.set_easels (s : State) (f : Fld) (x : Nat) : (s.set f x).easels = s.easels := rfl
@[simp] theorem State.set_f0 (s : State) (f : Fld) (x : Nat) : (s.set f x).f0 = s.f0 := rfl
@[simp] theorem State.set_f0Poll (s : State) (f : Fld) (x : Nat) : (s.set f x).f0Poll = s.f0Poll := rfl
@[simp] theorem State.set_f0PollStale (s : State) (f : Fld) (x : Nat) : (s.set f x).f0PollStale = s.f0PollStale := rfl
@[simp] theorem State.set_f0PollFrom (s : State) (f : Fld) (x : Nat) : (s.set f x).f0PollFrom = s.f0PollFrom := rfl
@[simp] theorem State.set_bme (s : State) (f : Fld) (x : Nat) : (s.set f x).bme = s.bme := rfl
@[simp] theorem State.set_pcie (s : State) (f : Fld) (x : Nat) : (s.set f x).pcie = s.pcie := rfl
@[simp] theorem State.set_turn (s : State) (f : Fld) (x : Nat) : (s.set f x).turn = s.turn := rfl
@[simp] theorem State.set_legs (s : State) (f : Fld) (x : Nat) : (s.set f x).legs = s.legs := rfl
@[simp] theorem State.set_ain (s : State) (f : Fld) (x : Nat) : (s.set f x).ain = s.ain := rfl
@[simp] theorem State.set_cmps (s : State) (f : Fld) (x : Nat) : (s.set f x).cmps = s.cmps := rfl
@[simp] theorem State.set_groups (s : State) (f : Fld) (x : Nat) : (s.set f x).groups = s.groups := rfl
@[simp] theorem State.set_router (s : State) (f : Fld) (x : Nat) : (s.set f x).router = s.router := rfl
@[simp] theorem State.set_adc (s : State) (f : Fld) (x : Nat) : (s.set f x).adc = s.adc := rfl
@[simp] theorem State.set_picked (s : State) (f : Fld) (x : Nat) : (s.set f x).picked = s.picked := rfl
@[simp] theorem State.set_links (s : State) (f : Fld) (x : Nat) : (s.set f x).links = s.links := rfl
@[simp] theorem State.set_pods (s : State) (f : Fld) (x : Nat) : (s.set f x).pods = s.pods := rfl
@[simp] theorem State.set_wheel (s : State) (f : Fld) (x : Nat) : (s.set f x).wheel = s.wheel := rfl
@[simp] theorem State.set_grid (s : State) (f : Fld) (x : Nat) : (s.set f x).grid = s.grid := rfl
@[simp] theorem State.set_mtr (s : State) (f : Fld) (x : Nat) : (s.set f x).mtr = s.mtr := rfl
@[simp] theorem State.set_aux (s : State) (f : Fld) (x : Nat) : (s.set f x).aux = s.aux := rfl
@[simp] theorem State.set_sup (s : State) (f : Fld) (x : Nat) : (s.set f x).sup = s.sup := rfl
@[simp] theorem State.set_unpredRegs (s : State) (f : Fld) (x : Nat) : (s.set f x).unpredRegs = s.unpredRegs := rfl
@[simp] theorem State.set_outbox (s : State) (f : Fld) (x : Nat) : (s.set f x).outbox = s.outbox := rfl
@[simp] theorem State.set_freeCount (s : State) (f : Fld) (x : Nat) : (s.set f x).freeCount = s.freeCount := rfl

@[simp] theorem State.setFlag_pending (s : State) (f : Fld) (b : Bool) : (s.setFlag f b).pending = s.pending := rfl
@[simp] theorem State.setFlag_time (s : State) (f : Fld) (b : Bool) : (s.setFlag f b).time = s.time := rfl
@[simp] theorem State.setFlag_age (s : State) (f : Fld) (b : Bool) : (s.setFlag f b).age = s.age := rfl
@[simp] theorem State.setFlag_fine (s : State) (f : Fld) (b : Bool) : (s.setFlag f b).fine = s.fine := rfl
@[simp] theorem State.setFlag_caps (s : State) (f : Fld) (b : Bool) : (s.setFlag f b).caps = s.caps := rfl
@[simp] theorem State.setFlag_lockNext (s : State) (f : Fld) (b : Bool) : (s.setFlag f b).lockNext = s.lockNext := rfl
@[simp] theorem State.setFlag_tick (s : State) (f : Fld) (b : Bool) : (s.setFlag f b).tick = s.tick := rfl
@[simp] theorem State.setFlag_tb (s : State) (f : Fld) (b : Bool) : (s.setFlag f b).tb = s.tb := rfl
@[simp] theorem State.setFlag_fuses (s : State) (f : Fld) (b : Bool) : (s.setFlag f b).fuses = s.fuses := rfl
@[simp] theorem State.setFlag_img (s : State) (f : Fld) (b : Bool) : (s.setFlag f b).img = s.img := rfl
@[simp] theorem State.setFlag_tiles (s : State) (f : Fld) (b : Bool) : (s.setFlag f b).tiles = s.tiles := rfl
@[simp] theorem State.setFlag_easels (s : State) (f : Fld) (b : Bool) : (s.setFlag f b).easels = s.easels := rfl
@[simp] theorem State.setFlag_f0 (s : State) (f : Fld) (b : Bool) : (s.setFlag f b).f0 = s.f0 := rfl
@[simp] theorem State.setFlag_f0Poll (s : State) (f : Fld) (b : Bool) : (s.setFlag f b).f0Poll = s.f0Poll := rfl
@[simp] theorem State.setFlag_f0PollStale (s : State) (f : Fld) (b : Bool) : (s.setFlag f b).f0PollStale = s.f0PollStale := rfl
@[simp] theorem State.setFlag_f0PollFrom (s : State) (f : Fld) (b : Bool) : (s.setFlag f b).f0PollFrom = s.f0PollFrom := rfl
@[simp] theorem State.setFlag_bme (s : State) (f : Fld) (b : Bool) : (s.setFlag f b).bme = s.bme := rfl
@[simp] theorem State.setFlag_pcie (s : State) (f : Fld) (b : Bool) : (s.setFlag f b).pcie = s.pcie := rfl
@[simp] theorem State.setFlag_turn (s : State) (f : Fld) (b : Bool) : (s.setFlag f b).turn = s.turn := rfl
@[simp] theorem State.setFlag_legs (s : State) (f : Fld) (b : Bool) : (s.setFlag f b).legs = s.legs := rfl
@[simp] theorem State.setFlag_ain (s : State) (f : Fld) (b : Bool) : (s.setFlag f b).ain = s.ain := rfl
@[simp] theorem State.setFlag_cmps (s : State) (f : Fld) (b : Bool) : (s.setFlag f b).cmps = s.cmps := rfl
@[simp] theorem State.setFlag_groups (s : State) (f : Fld) (b : Bool) : (s.setFlag f b).groups = s.groups := rfl
@[simp] theorem State.setFlag_router (s : State) (f : Fld) (b : Bool) : (s.setFlag f b).router = s.router := rfl
@[simp] theorem State.setFlag_adc (s : State) (f : Fld) (b : Bool) : (s.setFlag f b).adc = s.adc := rfl
@[simp] theorem State.setFlag_picked (s : State) (f : Fld) (b : Bool) : (s.setFlag f b).picked = s.picked := rfl
@[simp] theorem State.setFlag_links (s : State) (f : Fld) (b : Bool) : (s.setFlag f b).links = s.links := rfl
@[simp] theorem State.setFlag_pods (s : State) (f : Fld) (b : Bool) : (s.setFlag f b).pods = s.pods := rfl
@[simp] theorem State.setFlag_wheel (s : State) (f : Fld) (b : Bool) : (s.setFlag f b).wheel = s.wheel := rfl
@[simp] theorem State.setFlag_grid (s : State) (f : Fld) (b : Bool) : (s.setFlag f b).grid = s.grid := rfl
@[simp] theorem State.setFlag_mtr (s : State) (f : Fld) (b : Bool) : (s.setFlag f b).mtr = s.mtr := rfl
@[simp] theorem State.setFlag_aux (s : State) (f : Fld) (b : Bool) : (s.setFlag f b).aux = s.aux := rfl
@[simp] theorem State.setFlag_sup (s : State) (f : Fld) (b : Bool) : (s.setFlag f b).sup = s.sup := rfl
@[simp] theorem State.setFlag_unpredRegs (s : State) (f : Fld) (b : Bool) : (s.setFlag f b).unpredRegs = s.unpredRegs := rfl
@[simp] theorem State.setFlag_outbox (s : State) (f : Fld) (b : Bool) : (s.setFlag f b).outbox = s.outbox := rfl
@[simp] theorem State.setFlag_freeCount (s : State) (f : Fld) (b : Bool) : (s.setFlag f b).freeCount = s.freeCount := rfl

@[simp] theorem State.setBit_pending (s : State) (f : Fld) (i : Nat) (b : Bool) : (s.setBit f i b).pending = s.pending := rfl
@[simp] theorem State.setBit_time (s : State) (f : Fld) (i : Nat) (b : Bool) : (s.setBit f i b).time = s.time := rfl
@[simp] theorem State.setBit_age (s : State) (f : Fld) (i : Nat) (b : Bool) : (s.setBit f i b).age = s.age := rfl
@[simp] theorem State.setBit_fine (s : State) (f : Fld) (i : Nat) (b : Bool) : (s.setBit f i b).fine = s.fine := rfl
@[simp] theorem State.setBit_caps (s : State) (f : Fld) (i : Nat) (b : Bool) : (s.setBit f i b).caps = s.caps := rfl
@[simp] theorem State.setBit_lockNext (s : State) (f : Fld) (i : Nat) (b : Bool) : (s.setBit f i b).lockNext = s.lockNext := rfl
@[simp] theorem State.setBit_tick (s : State) (f : Fld) (i : Nat) (b : Bool) : (s.setBit f i b).tick = s.tick := rfl
@[simp] theorem State.setBit_tb (s : State) (f : Fld) (i : Nat) (b : Bool) : (s.setBit f i b).tb = s.tb := rfl
@[simp] theorem State.setBit_fuses (s : State) (f : Fld) (i : Nat) (b : Bool) : (s.setBit f i b).fuses = s.fuses := rfl
@[simp] theorem State.setBit_img (s : State) (f : Fld) (i : Nat) (b : Bool) : (s.setBit f i b).img = s.img := rfl
@[simp] theorem State.setBit_tiles (s : State) (f : Fld) (i : Nat) (b : Bool) : (s.setBit f i b).tiles = s.tiles := rfl
@[simp] theorem State.setBit_easels (s : State) (f : Fld) (i : Nat) (b : Bool) : (s.setBit f i b).easels = s.easels := rfl
@[simp] theorem State.setBit_f0 (s : State) (f : Fld) (i : Nat) (b : Bool) : (s.setBit f i b).f0 = s.f0 := rfl
@[simp] theorem State.setBit_f0Poll (s : State) (f : Fld) (i : Nat) (b : Bool) : (s.setBit f i b).f0Poll = s.f0Poll := rfl
@[simp] theorem State.setBit_f0PollStale (s : State) (f : Fld) (i : Nat) (b : Bool) : (s.setBit f i b).f0PollStale = s.f0PollStale := rfl
@[simp] theorem State.setBit_f0PollFrom (s : State) (f : Fld) (i : Nat) (b : Bool) : (s.setBit f i b).f0PollFrom = s.f0PollFrom := rfl
@[simp] theorem State.setBit_bme (s : State) (f : Fld) (i : Nat) (b : Bool) : (s.setBit f i b).bme = s.bme := rfl
@[simp] theorem State.setBit_pcie (s : State) (f : Fld) (i : Nat) (b : Bool) : (s.setBit f i b).pcie = s.pcie := rfl
@[simp] theorem State.setBit_turn (s : State) (f : Fld) (i : Nat) (b : Bool) : (s.setBit f i b).turn = s.turn := rfl
@[simp] theorem State.setBit_legs (s : State) (f : Fld) (i : Nat) (b : Bool) : (s.setBit f i b).legs = s.legs := rfl
@[simp] theorem State.setBit_ain (s : State) (f : Fld) (i : Nat) (b : Bool) : (s.setBit f i b).ain = s.ain := rfl
@[simp] theorem State.setBit_cmps (s : State) (f : Fld) (i : Nat) (b : Bool) : (s.setBit f i b).cmps = s.cmps := rfl
@[simp] theorem State.setBit_groups (s : State) (f : Fld) (i : Nat) (b : Bool) : (s.setBit f i b).groups = s.groups := rfl
@[simp] theorem State.setBit_router (s : State) (f : Fld) (i : Nat) (b : Bool) : (s.setBit f i b).router = s.router := rfl
@[simp] theorem State.setBit_adc (s : State) (f : Fld) (i : Nat) (b : Bool) : (s.setBit f i b).adc = s.adc := rfl
@[simp] theorem State.setBit_picked (s : State) (f : Fld) (i : Nat) (b : Bool) : (s.setBit f i b).picked = s.picked := rfl
@[simp] theorem State.setBit_links (s : State) (f : Fld) (i : Nat) (b : Bool) : (s.setBit f i b).links = s.links := rfl
@[simp] theorem State.setBit_pods (s : State) (f : Fld) (i : Nat) (b : Bool) : (s.setBit f i b).pods = s.pods := rfl
@[simp] theorem State.setBit_wheel (s : State) (f : Fld) (i : Nat) (b : Bool) : (s.setBit f i b).wheel = s.wheel := rfl
@[simp] theorem State.setBit_grid (s : State) (f : Fld) (i : Nat) (b : Bool) : (s.setBit f i b).grid = s.grid := rfl
@[simp] theorem State.setBit_mtr (s : State) (f : Fld) (i : Nat) (b : Bool) : (s.setBit f i b).mtr = s.mtr := rfl
@[simp] theorem State.setBit_aux (s : State) (f : Fld) (i : Nat) (b : Bool) : (s.setBit f i b).aux = s.aux := rfl
@[simp] theorem State.setBit_sup (s : State) (f : Fld) (i : Nat) (b : Bool) : (s.setBit f i b).sup = s.sup := rfl
@[simp] theorem State.setBit_unpredRegs (s : State) (f : Fld) (i : Nat) (b : Bool) : (s.setBit f i b).unpredRegs = s.unpredRegs := rfl
@[simp] theorem State.setBit_outbox (s : State) (f : Fld) (i : Nat) (b : Bool) : (s.setBit f i b).outbox = s.outbox := rfl
@[simp] theorem State.setBit_freeCount (s : State) (f : Fld) (i : Nat) (b : Bool) : (s.setBit f i b).freeCount = s.freeCount := rfl

@[simp] theorem State.raise_pending (s : State) (f : Fld) : (s.raise f).pending = s.pending := rfl
@[simp] theorem State.raise_time (s : State) (f : Fld) : (s.raise f).time = s.time := rfl
@[simp] theorem State.raise_age (s : State) (f : Fld) : (s.raise f).age = s.age := rfl
@[simp] theorem State.raise_fine (s : State) (f : Fld) : (s.raise f).fine = s.fine := rfl
@[simp] theorem State.raise_caps (s : State) (f : Fld) : (s.raise f).caps = s.caps := rfl
@[simp] theorem State.raise_lockNext (s : State) (f : Fld) : (s.raise f).lockNext = s.lockNext := rfl
@[simp] theorem State.raise_tb (s : State) (f : Fld) : (s.raise f).tb = s.tb := rfl
@[simp] theorem State.raise_fuses (s : State) (f : Fld) : (s.raise f).fuses = s.fuses := rfl
@[simp] theorem State.raise_img (s : State) (f : Fld) : (s.raise f).img = s.img := rfl
@[simp] theorem State.raise_tiles (s : State) (f : Fld) : (s.raise f).tiles = s.tiles := rfl
@[simp] theorem State.raise_easels (s : State) (f : Fld) : (s.raise f).easels = s.easels := rfl
@[simp] theorem State.raise_f0 (s : State) (f : Fld) : (s.raise f).f0 = s.f0 := rfl
@[simp] theorem State.raise_f0Poll (s : State) (f : Fld) : (s.raise f).f0Poll = s.f0Poll := rfl
@[simp] theorem State.raise_f0PollStale (s : State) (f : Fld) : (s.raise f).f0PollStale = s.f0PollStale := rfl
@[simp] theorem State.raise_f0PollFrom (s : State) (f : Fld) : (s.raise f).f0PollFrom = s.f0PollFrom := rfl
@[simp] theorem State.raise_bme (s : State) (f : Fld) : (s.raise f).bme = s.bme := rfl
@[simp] theorem State.raise_pcie (s : State) (f : Fld) : (s.raise f).pcie = s.pcie := rfl
@[simp] theorem State.raise_turn (s : State) (f : Fld) : (s.raise f).turn = s.turn := rfl
@[simp] theorem State.raise_legs (s : State) (f : Fld) : (s.raise f).legs = s.legs := rfl
@[simp] theorem State.raise_ain (s : State) (f : Fld) : (s.raise f).ain = s.ain := rfl
@[simp] theorem State.raise_cmps (s : State) (f : Fld) : (s.raise f).cmps = s.cmps := rfl
@[simp] theorem State.raise_groups (s : State) (f : Fld) : (s.raise f).groups = s.groups := rfl
@[simp] theorem State.raise_router (s : State) (f : Fld) : (s.raise f).router = s.router := rfl
@[simp] theorem State.raise_adc (s : State) (f : Fld) : (s.raise f).adc = s.adc := rfl
@[simp] theorem State.raise_picked (s : State) (f : Fld) : (s.raise f).picked = s.picked := rfl
@[simp] theorem State.raise_links (s : State) (f : Fld) : (s.raise f).links = s.links := rfl
@[simp] theorem State.raise_pods (s : State) (f : Fld) : (s.raise f).pods = s.pods := rfl
@[simp] theorem State.raise_wheel (s : State) (f : Fld) : (s.raise f).wheel = s.wheel := rfl
@[simp] theorem State.raise_grid (s : State) (f : Fld) : (s.raise f).grid = s.grid := rfl
@[simp] theorem State.raise_mtr (s : State) (f : Fld) : (s.raise f).mtr = s.mtr := rfl
@[simp] theorem State.raise_aux (s : State) (f : Fld) : (s.raise f).aux = s.aux := rfl
@[simp] theorem State.raise_sup (s : State) (f : Fld) : (s.raise f).sup = s.sup := rfl
@[simp] theorem State.raise_unpredRegs (s : State) (f : Fld) : (s.raise f).unpredRegs = s.unpredRegs := rfl
@[simp] theorem State.raise_outbox (s : State) (f : Fld) : (s.raise f).outbox = s.outbox := rfl
@[simp] theorem State.raise_freeCount (s : State) (f : Fld) : (s.raise f).freeCount = s.freeCount := rfl

@[simp] theorem State.noteCount_pending (s : State) (f : Fld) : (s.noteCount f).pending = s.pending := rfl
@[simp] theorem State.noteCount_regs (s : State) (f : Fld) : (s.noteCount f).regs = s.regs := rfl
@[simp] theorem State.noteCount_time (s : State) (f : Fld) : (s.noteCount f).time = s.time := rfl
@[simp] theorem State.noteCount_age (s : State) (f : Fld) : (s.noteCount f).age = s.age := rfl
@[simp] theorem State.noteCount_fine (s : State) (f : Fld) : (s.noteCount f).fine = s.fine := rfl
@[simp] theorem State.noteCount_caps (s : State) (f : Fld) : (s.noteCount f).caps = s.caps := rfl
@[simp] theorem State.noteCount_lockNext (s : State) (f : Fld) : (s.noteCount f).lockNext = s.lockNext := rfl
@[simp] theorem State.noteCount_tb (s : State) (f : Fld) : (s.noteCount f).tb = s.tb := rfl
@[simp] theorem State.noteCount_fuses (s : State) (f : Fld) : (s.noteCount f).fuses = s.fuses := rfl
@[simp] theorem State.noteCount_img (s : State) (f : Fld) : (s.noteCount f).img = s.img := rfl
@[simp] theorem State.noteCount_tiles (s : State) (f : Fld) : (s.noteCount f).tiles = s.tiles := rfl
@[simp] theorem State.noteCount_easels (s : State) (f : Fld) : (s.noteCount f).easels = s.easels := rfl
@[simp] theorem State.noteCount_f0 (s : State) (f : Fld) : (s.noteCount f).f0 = s.f0 := rfl
@[simp] theorem State.noteCount_f0Poll (s : State) (f : Fld) : (s.noteCount f).f0Poll = s.f0Poll := rfl
@[simp] theorem State.noteCount_f0PollStale (s : State) (f : Fld) : (s.noteCount f).f0PollStale = s.f0PollStale := rfl
@[simp] theorem State.noteCount_f0PollFrom (s : State) (f : Fld) : (s.noteCount f).f0PollFrom = s.f0PollFrom := rfl
@[simp] theorem State.noteCount_bme (s : State) (f : Fld) : (s.noteCount f).bme = s.bme := rfl
@[simp] theorem State.noteCount_pcie (s : State) (f : Fld) : (s.noteCount f).pcie = s.pcie := rfl
@[simp] theorem State.noteCount_turn (s : State) (f : Fld) : (s.noteCount f).turn = s.turn := rfl
@[simp] theorem State.noteCount_legs (s : State) (f : Fld) : (s.noteCount f).legs = s.legs := rfl
@[simp] theorem State.noteCount_ain (s : State) (f : Fld) : (s.noteCount f).ain = s.ain := rfl
@[simp] theorem State.noteCount_cmps (s : State) (f : Fld) : (s.noteCount f).cmps = s.cmps := rfl
@[simp] theorem State.noteCount_groups (s : State) (f : Fld) : (s.noteCount f).groups = s.groups := rfl
@[simp] theorem State.noteCount_router (s : State) (f : Fld) : (s.noteCount f).router = s.router := rfl
@[simp] theorem State.noteCount_adc (s : State) (f : Fld) : (s.noteCount f).adc = s.adc := rfl
@[simp] theorem State.noteCount_picked (s : State) (f : Fld) : (s.noteCount f).picked = s.picked := rfl
@[simp] theorem State.noteCount_links (s : State) (f : Fld) : (s.noteCount f).links = s.links := rfl
@[simp] theorem State.noteCount_pods (s : State) (f : Fld) : (s.noteCount f).pods = s.pods := rfl
@[simp] theorem State.noteCount_wheel (s : State) (f : Fld) : (s.noteCount f).wheel = s.wheel := rfl
@[simp] theorem State.noteCount_grid (s : State) (f : Fld) : (s.noteCount f).grid = s.grid := rfl
@[simp] theorem State.noteCount_mtr (s : State) (f : Fld) : (s.noteCount f).mtr = s.mtr := rfl
@[simp] theorem State.noteCount_aux (s : State) (f : Fld) : (s.noteCount f).aux = s.aux := rfl
@[simp] theorem State.noteCount_sup (s : State) (f : Fld) : (s.noteCount f).sup = s.sup := rfl
@[simp] theorem State.noteCount_unpredRegs (s : State) (f : Fld) : (s.noteCount f).unpredRegs = s.unpredRegs := rfl
@[simp] theorem State.noteCount_outbox (s : State) (f : Fld) : (s.noteCount f).outbox = s.outbox := rfl
@[simp] theorem State.noteCount_freeCount (s : State) (f : Fld) : (s.noteCount f).freeCount = s.freeCount := rfl

@[simp] theorem State.modEz_pending (s : State) (e : Fin 8) (f : Easel → Easel) : (s.modEz e f).pending = s.pending := rfl
@[simp] theorem State.modEz_regs (s : State) (e : Fin 8) (f : Easel → Easel) : (s.modEz e f).regs = s.regs := rfl
@[simp] theorem State.modEz_time (s : State) (e : Fin 8) (f : Easel → Easel) : (s.modEz e f).time = s.time := rfl
@[simp] theorem State.modEz_age (s : State) (e : Fin 8) (f : Easel → Easel) : (s.modEz e f).age = s.age := rfl
@[simp] theorem State.modEz_fine (s : State) (e : Fin 8) (f : Easel → Easel) : (s.modEz e f).fine = s.fine := rfl
@[simp] theorem State.modEz_caps (s : State) (e : Fin 8) (f : Easel → Easel) : (s.modEz e f).caps = s.caps := rfl
@[simp] theorem State.modEz_lockNext (s : State) (e : Fin 8) (f : Easel → Easel) : (s.modEz e f).lockNext = s.lockNext := rfl
@[simp] theorem State.modEz_tick (s : State) (e : Fin 8) (f : Easel → Easel) : (s.modEz e f).tick = s.tick := rfl
@[simp] theorem State.modEz_tb (s : State) (e : Fin 8) (f : Easel → Easel) : (s.modEz e f).tb = s.tb := rfl
@[simp] theorem State.modEz_fuses (s : State) (e : Fin 8) (f : Easel → Easel) : (s.modEz e f).fuses = s.fuses := rfl
@[simp] theorem State.modEz_img (s : State) (e : Fin 8) (f : Easel → Easel) : (s.modEz e f).img = s.img := rfl
@[simp] theorem State.modEz_tiles (s : State) (e : Fin 8) (f : Easel → Easel) : (s.modEz e f).tiles = s.tiles := rfl
@[simp] theorem State.modEz_f0 (s : State) (e : Fin 8) (f : Easel → Easel) : (s.modEz e f).f0 = s.f0 := rfl
@[simp] theorem State.modEz_f0Poll (s : State) (e : Fin 8) (f : Easel → Easel) : (s.modEz e f).f0Poll = s.f0Poll := rfl
@[simp] theorem State.modEz_f0PollStale (s : State) (e : Fin 8) (f : Easel → Easel) : (s.modEz e f).f0PollStale = s.f0PollStale := rfl
@[simp] theorem State.modEz_f0PollFrom (s : State) (e : Fin 8) (f : Easel → Easel) : (s.modEz e f).f0PollFrom = s.f0PollFrom := rfl
@[simp] theorem State.modEz_bme (s : State) (e : Fin 8) (f : Easel → Easel) : (s.modEz e f).bme = s.bme := rfl
@[simp] theorem State.modEz_pcie (s : State) (e : Fin 8) (f : Easel → Easel) : (s.modEz e f).pcie = s.pcie := rfl
@[simp] theorem State.modEz_turn (s : State) (e : Fin 8) (f : Easel → Easel) : (s.modEz e f).turn = s.turn := rfl
@[simp] theorem State.modEz_legs (s : State) (e : Fin 8) (f : Easel → Easel) : (s.modEz e f).legs = s.legs := rfl
@[simp] theorem State.modEz_ain (s : State) (e : Fin 8) (f : Easel → Easel) : (s.modEz e f).ain = s.ain := rfl
@[simp] theorem State.modEz_cmps (s : State) (e : Fin 8) (f : Easel → Easel) : (s.modEz e f).cmps = s.cmps := rfl
@[simp] theorem State.modEz_groups (s : State) (e : Fin 8) (f : Easel → Easel) : (s.modEz e f).groups = s.groups := rfl
@[simp] theorem State.modEz_router (s : State) (e : Fin 8) (f : Easel → Easel) : (s.modEz e f).router = s.router := rfl
@[simp] theorem State.modEz_adc (s : State) (e : Fin 8) (f : Easel → Easel) : (s.modEz e f).adc = s.adc := rfl
@[simp] theorem State.modEz_picked (s : State) (e : Fin 8) (f : Easel → Easel) : (s.modEz e f).picked = s.picked := rfl
@[simp] theorem State.modEz_links (s : State) (e : Fin 8) (f : Easel → Easel) : (s.modEz e f).links = s.links := rfl
@[simp] theorem State.modEz_pods (s : State) (e : Fin 8) (f : Easel → Easel) : (s.modEz e f).pods = s.pods := rfl
@[simp] theorem State.modEz_wheel (s : State) (e : Fin 8) (f : Easel → Easel) : (s.modEz e f).wheel = s.wheel := rfl
@[simp] theorem State.modEz_grid (s : State) (e : Fin 8) (f : Easel → Easel) : (s.modEz e f).grid = s.grid := rfl
@[simp] theorem State.modEz_mtr (s : State) (e : Fin 8) (f : Easel → Easel) : (s.modEz e f).mtr = s.mtr := rfl
@[simp] theorem State.modEz_aux (s : State) (e : Fin 8) (f : Easel → Easel) : (s.modEz e f).aux = s.aux := rfl
@[simp] theorem State.modEz_sup (s : State) (e : Fin 8) (f : Easel → Easel) : (s.modEz e f).sup = s.sup := rfl
@[simp] theorem State.modEz_unpredRegs (s : State) (e : Fin 8) (f : Easel → Easel) : (s.modEz e f).unpredRegs = s.unpredRegs := rfl
@[simp] theorem State.modEz_outbox (s : State) (e : Fin 8) (f : Easel → Easel) : (s.modEz e f).outbox = s.outbox := rfl
@[simp] theorem State.modEz_freeCount (s : State) (e : Fin 8) (f : Easel → Easel) : (s.modEz e f).freeCount = s.freeCount := rfl

@[simp] theorem State.modLeg_pending (s : State) (l : Fin 64) (f : Leg → Leg) : (s.modLeg l f).pending = s.pending := rfl
@[simp] theorem State.modLeg_regs (s : State) (l : Fin 64) (f : Leg → Leg) : (s.modLeg l f).regs = s.regs := rfl
@[simp] theorem State.modLeg_time (s : State) (l : Fin 64) (f : Leg → Leg) : (s.modLeg l f).time = s.time := rfl
@[simp] theorem State.modLeg_age (s : State) (l : Fin 64) (f : Leg → Leg) : (s.modLeg l f).age = s.age := rfl
@[simp] theorem State.modLeg_fine (s : State) (l : Fin 64) (f : Leg → Leg) : (s.modLeg l f).fine = s.fine := rfl
@[simp] theorem State.modLeg_caps (s : State) (l : Fin 64) (f : Leg → Leg) : (s.modLeg l f).caps = s.caps := rfl
@[simp] theorem State.modLeg_lockNext (s : State) (l : Fin 64) (f : Leg → Leg) : (s.modLeg l f).lockNext = s.lockNext := rfl
@[simp] theorem State.modLeg_tick (s : State) (l : Fin 64) (f : Leg → Leg) : (s.modLeg l f).tick = s.tick := rfl
@[simp] theorem State.modLeg_tb (s : State) (l : Fin 64) (f : Leg → Leg) : (s.modLeg l f).tb = s.tb := rfl
@[simp] theorem State.modLeg_fuses (s : State) (l : Fin 64) (f : Leg → Leg) : (s.modLeg l f).fuses = s.fuses := rfl
@[simp] theorem State.modLeg_img (s : State) (l : Fin 64) (f : Leg → Leg) : (s.modLeg l f).img = s.img := rfl
@[simp] theorem State.modLeg_tiles (s : State) (l : Fin 64) (f : Leg → Leg) : (s.modLeg l f).tiles = s.tiles := rfl
@[simp] theorem State.modLeg_easels (s : State) (l : Fin 64) (f : Leg → Leg) : (s.modLeg l f).easels = s.easels := rfl
@[simp] theorem State.modLeg_f0 (s : State) (l : Fin 64) (f : Leg → Leg) : (s.modLeg l f).f0 = s.f0 := rfl
@[simp] theorem State.modLeg_f0Poll (s : State) (l : Fin 64) (f : Leg → Leg) : (s.modLeg l f).f0Poll = s.f0Poll := rfl
@[simp] theorem State.modLeg_f0PollStale (s : State) (l : Fin 64) (f : Leg → Leg) : (s.modLeg l f).f0PollStale = s.f0PollStale := rfl
@[simp] theorem State.modLeg_f0PollFrom (s : State) (l : Fin 64) (f : Leg → Leg) : (s.modLeg l f).f0PollFrom = s.f0PollFrom := rfl
@[simp] theorem State.modLeg_bme (s : State) (l : Fin 64) (f : Leg → Leg) : (s.modLeg l f).bme = s.bme := rfl
@[simp] theorem State.modLeg_pcie (s : State) (l : Fin 64) (f : Leg → Leg) : (s.modLeg l f).pcie = s.pcie := rfl
@[simp] theorem State.modLeg_turn (s : State) (l : Fin 64) (f : Leg → Leg) : (s.modLeg l f).turn = s.turn := rfl
@[simp] theorem State.modLeg_ain (s : State) (l : Fin 64) (f : Leg → Leg) : (s.modLeg l f).ain = s.ain := rfl
@[simp] theorem State.modLeg_cmps (s : State) (l : Fin 64) (f : Leg → Leg) : (s.modLeg l f).cmps = s.cmps := rfl
@[simp] theorem State.modLeg_groups (s : State) (l : Fin 64) (f : Leg → Leg) : (s.modLeg l f).groups = s.groups := rfl
@[simp] theorem State.modLeg_router (s : State) (l : Fin 64) (f : Leg → Leg) : (s.modLeg l f).router = s.router := rfl
@[simp] theorem State.modLeg_adc (s : State) (l : Fin 64) (f : Leg → Leg) : (s.modLeg l f).adc = s.adc := rfl
@[simp] theorem State.modLeg_picked (s : State) (l : Fin 64) (f : Leg → Leg) : (s.modLeg l f).picked = s.picked := rfl
@[simp] theorem State.modLeg_links (s : State) (l : Fin 64) (f : Leg → Leg) : (s.modLeg l f).links = s.links := rfl
@[simp] theorem State.modLeg_pods (s : State) (l : Fin 64) (f : Leg → Leg) : (s.modLeg l f).pods = s.pods := rfl
@[simp] theorem State.modLeg_wheel (s : State) (l : Fin 64) (f : Leg → Leg) : (s.modLeg l f).wheel = s.wheel := rfl
@[simp] theorem State.modLeg_grid (s : State) (l : Fin 64) (f : Leg → Leg) : (s.modLeg l f).grid = s.grid := rfl
@[simp] theorem State.modLeg_mtr (s : State) (l : Fin 64) (f : Leg → Leg) : (s.modLeg l f).mtr = s.mtr := rfl
@[simp] theorem State.modLeg_aux (s : State) (l : Fin 64) (f : Leg → Leg) : (s.modLeg l f).aux = s.aux := rfl
@[simp] theorem State.modLeg_sup (s : State) (l : Fin 64) (f : Leg → Leg) : (s.modLeg l f).sup = s.sup := rfl
@[simp] theorem State.modLeg_unpredRegs (s : State) (l : Fin 64) (f : Leg → Leg) : (s.modLeg l f).unpredRegs = s.unpredRegs := rfl
@[simp] theorem State.modLeg_outbox (s : State) (l : Fin 64) (f : Leg → Leg) : (s.modLeg l f).outbox = s.outbox := rfl
@[simp] theorem State.modLeg_freeCount (s : State) (l : Fin 64) (f : Leg → Leg) : (s.modLeg l f).freeCount = s.freeCount := rfl

@[simp] theorem State.modTile_pending (s : State) (t : Fin 16) (f : Tile → Tile) : (s.modTile t f).pending = s.pending := rfl
@[simp] theorem State.modTile_regs (s : State) (t : Fin 16) (f : Tile → Tile) : (s.modTile t f).regs = s.regs := rfl
@[simp] theorem State.modTile_time (s : State) (t : Fin 16) (f : Tile → Tile) : (s.modTile t f).time = s.time := rfl
@[simp] theorem State.modTile_age (s : State) (t : Fin 16) (f : Tile → Tile) : (s.modTile t f).age = s.age := rfl
@[simp] theorem State.modTile_fine (s : State) (t : Fin 16) (f : Tile → Tile) : (s.modTile t f).fine = s.fine := rfl
@[simp] theorem State.modTile_caps (s : State) (t : Fin 16) (f : Tile → Tile) : (s.modTile t f).caps = s.caps := rfl
@[simp] theorem State.modTile_lockNext (s : State) (t : Fin 16) (f : Tile → Tile) : (s.modTile t f).lockNext = s.lockNext := rfl
@[simp] theorem State.modTile_tick (s : State) (t : Fin 16) (f : Tile → Tile) : (s.modTile t f).tick = s.tick := rfl
@[simp] theorem State.modTile_tb (s : State) (t : Fin 16) (f : Tile → Tile) : (s.modTile t f).tb = s.tb := rfl
@[simp] theorem State.modTile_fuses (s : State) (t : Fin 16) (f : Tile → Tile) : (s.modTile t f).fuses = s.fuses := rfl
@[simp] theorem State.modTile_img (s : State) (t : Fin 16) (f : Tile → Tile) : (s.modTile t f).img = s.img := rfl
@[simp] theorem State.modTile_easels (s : State) (t : Fin 16) (f : Tile → Tile) : (s.modTile t f).easels = s.easels := rfl
@[simp] theorem State.modTile_f0 (s : State) (t : Fin 16) (f : Tile → Tile) : (s.modTile t f).f0 = s.f0 := rfl
@[simp] theorem State.modTile_f0Poll (s : State) (t : Fin 16) (f : Tile → Tile) : (s.modTile t f).f0Poll = s.f0Poll := rfl
@[simp] theorem State.modTile_f0PollStale (s : State) (t : Fin 16) (f : Tile → Tile) : (s.modTile t f).f0PollStale = s.f0PollStale := rfl
@[simp] theorem State.modTile_f0PollFrom (s : State) (t : Fin 16) (f : Tile → Tile) : (s.modTile t f).f0PollFrom = s.f0PollFrom := rfl
@[simp] theorem State.modTile_bme (s : State) (t : Fin 16) (f : Tile → Tile) : (s.modTile t f).bme = s.bme := rfl
@[simp] theorem State.modTile_pcie (s : State) (t : Fin 16) (f : Tile → Tile) : (s.modTile t f).pcie = s.pcie := rfl
@[simp] theorem State.modTile_turn (s : State) (t : Fin 16) (f : Tile → Tile) : (s.modTile t f).turn = s.turn := rfl
@[simp] theorem State.modTile_legs (s : State) (t : Fin 16) (f : Tile → Tile) : (s.modTile t f).legs = s.legs := rfl
@[simp] theorem State.modTile_ain (s : State) (t : Fin 16) (f : Tile → Tile) : (s.modTile t f).ain = s.ain := rfl
@[simp] theorem State.modTile_cmps (s : State) (t : Fin 16) (f : Tile → Tile) : (s.modTile t f).cmps = s.cmps := rfl
@[simp] theorem State.modTile_groups (s : State) (t : Fin 16) (f : Tile → Tile) : (s.modTile t f).groups = s.groups := rfl
@[simp] theorem State.modTile_router (s : State) (t : Fin 16) (f : Tile → Tile) : (s.modTile t f).router = s.router := rfl
@[simp] theorem State.modTile_adc (s : State) (t : Fin 16) (f : Tile → Tile) : (s.modTile t f).adc = s.adc := rfl
@[simp] theorem State.modTile_picked (s : State) (t : Fin 16) (f : Tile → Tile) : (s.modTile t f).picked = s.picked := rfl
@[simp] theorem State.modTile_links (s : State) (t : Fin 16) (f : Tile → Tile) : (s.modTile t f).links = s.links := rfl
@[simp] theorem State.modTile_pods (s : State) (t : Fin 16) (f : Tile → Tile) : (s.modTile t f).pods = s.pods := rfl
@[simp] theorem State.modTile_wheel (s : State) (t : Fin 16) (f : Tile → Tile) : (s.modTile t f).wheel = s.wheel := rfl
@[simp] theorem State.modTile_grid (s : State) (t : Fin 16) (f : Tile → Tile) : (s.modTile t f).grid = s.grid := rfl
@[simp] theorem State.modTile_mtr (s : State) (t : Fin 16) (f : Tile → Tile) : (s.modTile t f).mtr = s.mtr := rfl
@[simp] theorem State.modTile_aux (s : State) (t : Fin 16) (f : Tile → Tile) : (s.modTile t f).aux = s.aux := rfl
@[simp] theorem State.modTile_sup (s : State) (t : Fin 16) (f : Tile → Tile) : (s.modTile t f).sup = s.sup := rfl
@[simp] theorem State.modTile_unpredRegs (s : State) (t : Fin 16) (f : Tile → Tile) : (s.modTile t f).unpredRegs = s.unpredRegs := rfl
@[simp] theorem State.modTile_outbox (s : State) (t : Fin 16) (f : Tile → Tile) : (s.modTile t f).outbox = s.outbox := rfl
@[simp] theorem State.modTile_freeCount (s : State) (t : Fin 16) (f : Tile → Tile) : (s.modTile t f).freeCount = s.freeCount := rfl

@[simp] theorem State.modTb_pending (s : State) (f : Timebase → Timebase) : (s.modTb f).pending = s.pending := rfl
@[simp] theorem State.modTb_regs (s : State) (f : Timebase → Timebase) : (s.modTb f).regs = s.regs := rfl
@[simp] theorem State.modTb_time (s : State) (f : Timebase → Timebase) : (s.modTb f).time = s.time := rfl
@[simp] theorem State.modTb_age (s : State) (f : Timebase → Timebase) : (s.modTb f).age = s.age := rfl
@[simp] theorem State.modTb_fine (s : State) (f : Timebase → Timebase) : (s.modTb f).fine = s.fine := rfl
@[simp] theorem State.modTb_caps (s : State) (f : Timebase → Timebase) : (s.modTb f).caps = s.caps := rfl
@[simp] theorem State.modTb_lockNext (s : State) (f : Timebase → Timebase) : (s.modTb f).lockNext = s.lockNext := rfl
@[simp] theorem State.modTb_tick (s : State) (f : Timebase → Timebase) : (s.modTb f).tick = s.tick := rfl
@[simp] theorem State.modTb_fuses (s : State) (f : Timebase → Timebase) : (s.modTb f).fuses = s.fuses := rfl
@[simp] theorem State.modTb_img (s : State) (f : Timebase → Timebase) : (s.modTb f).img = s.img := rfl
@[simp] theorem State.modTb_tiles (s : State) (f : Timebase → Timebase) : (s.modTb f).tiles = s.tiles := rfl
@[simp] theorem State.modTb_easels (s : State) (f : Timebase → Timebase) : (s.modTb f).easels = s.easels := rfl
@[simp] theorem State.modTb_f0 (s : State) (f : Timebase → Timebase) : (s.modTb f).f0 = s.f0 := rfl
@[simp] theorem State.modTb_f0Poll (s : State) (f : Timebase → Timebase) : (s.modTb f).f0Poll = s.f0Poll := rfl
@[simp] theorem State.modTb_f0PollStale (s : State) (f : Timebase → Timebase) : (s.modTb f).f0PollStale = s.f0PollStale := rfl
@[simp] theorem State.modTb_f0PollFrom (s : State) (f : Timebase → Timebase) : (s.modTb f).f0PollFrom = s.f0PollFrom := rfl
@[simp] theorem State.modTb_bme (s : State) (f : Timebase → Timebase) : (s.modTb f).bme = s.bme := rfl
@[simp] theorem State.modTb_pcie (s : State) (f : Timebase → Timebase) : (s.modTb f).pcie = s.pcie := rfl
@[simp] theorem State.modTb_turn (s : State) (f : Timebase → Timebase) : (s.modTb f).turn = s.turn := rfl
@[simp] theorem State.modTb_legs (s : State) (f : Timebase → Timebase) : (s.modTb f).legs = s.legs := rfl
@[simp] theorem State.modTb_ain (s : State) (f : Timebase → Timebase) : (s.modTb f).ain = s.ain := rfl
@[simp] theorem State.modTb_cmps (s : State) (f : Timebase → Timebase) : (s.modTb f).cmps = s.cmps := rfl
@[simp] theorem State.modTb_groups (s : State) (f : Timebase → Timebase) : (s.modTb f).groups = s.groups := rfl
@[simp] theorem State.modTb_router (s : State) (f : Timebase → Timebase) : (s.modTb f).router = s.router := rfl
@[simp] theorem State.modTb_adc (s : State) (f : Timebase → Timebase) : (s.modTb f).adc = s.adc := rfl
@[simp] theorem State.modTb_picked (s : State) (f : Timebase → Timebase) : (s.modTb f).picked = s.picked := rfl
@[simp] theorem State.modTb_links (s : State) (f : Timebase → Timebase) : (s.modTb f).links = s.links := rfl
@[simp] theorem State.modTb_pods (s : State) (f : Timebase → Timebase) : (s.modTb f).pods = s.pods := rfl
@[simp] theorem State.modTb_wheel (s : State) (f : Timebase → Timebase) : (s.modTb f).wheel = s.wheel := rfl
@[simp] theorem State.modTb_grid (s : State) (f : Timebase → Timebase) : (s.modTb f).grid = s.grid := rfl
@[simp] theorem State.modTb_mtr (s : State) (f : Timebase → Timebase) : (s.modTb f).mtr = s.mtr := rfl
@[simp] theorem State.modTb_aux (s : State) (f : Timebase → Timebase) : (s.modTb f).aux = s.aux := rfl
@[simp] theorem State.modTb_sup (s : State) (f : Timebase → Timebase) : (s.modTb f).sup = s.sup := rfl
@[simp] theorem State.modTb_unpredRegs (s : State) (f : Timebase → Timebase) : (s.modTb f).unpredRegs = s.unpredRegs := rfl
@[simp] theorem State.modTb_outbox (s : State) (f : Timebase → Timebase) : (s.modTb f).outbox = s.outbox := rfl
@[simp] theorem State.modTb_freeCount (s : State) (f : Timebase → Timebase) : (s.modTb f).freeCount = s.freeCount := rfl

@[simp] theorem State.modSup_pending (s : State) (f : Sup → Sup) : (s.modSup f).pending = s.pending := rfl
@[simp] theorem State.modSup_regs (s : State) (f : Sup → Sup) : (s.modSup f).regs = s.regs := rfl
@[simp] theorem State.modSup_time (s : State) (f : Sup → Sup) : (s.modSup f).time = s.time := rfl
@[simp] theorem State.modSup_age (s : State) (f : Sup → Sup) : (s.modSup f).age = s.age := rfl
@[simp] theorem State.modSup_fine (s : State) (f : Sup → Sup) : (s.modSup f).fine = s.fine := rfl
@[simp] theorem State.modSup_caps (s : State) (f : Sup → Sup) : (s.modSup f).caps = s.caps := rfl
@[simp] theorem State.modSup_lockNext (s : State) (f : Sup → Sup) : (s.modSup f).lockNext = s.lockNext := rfl
@[simp] theorem State.modSup_tick (s : State) (f : Sup → Sup) : (s.modSup f).tick = s.tick := rfl
@[simp] theorem State.modSup_tb (s : State) (f : Sup → Sup) : (s.modSup f).tb = s.tb := rfl
@[simp] theorem State.modSup_fuses (s : State) (f : Sup → Sup) : (s.modSup f).fuses = s.fuses := rfl
@[simp] theorem State.modSup_img (s : State) (f : Sup → Sup) : (s.modSup f).img = s.img := rfl
@[simp] theorem State.modSup_tiles (s : State) (f : Sup → Sup) : (s.modSup f).tiles = s.tiles := rfl
@[simp] theorem State.modSup_easels (s : State) (f : Sup → Sup) : (s.modSup f).easels = s.easels := rfl
@[simp] theorem State.modSup_f0 (s : State) (f : Sup → Sup) : (s.modSup f).f0 = s.f0 := rfl
@[simp] theorem State.modSup_f0Poll (s : State) (f : Sup → Sup) : (s.modSup f).f0Poll = s.f0Poll := rfl
@[simp] theorem State.modSup_f0PollStale (s : State) (f : Sup → Sup) : (s.modSup f).f0PollStale = s.f0PollStale := rfl
@[simp] theorem State.modSup_f0PollFrom (s : State) (f : Sup → Sup) : (s.modSup f).f0PollFrom = s.f0PollFrom := rfl
@[simp] theorem State.modSup_bme (s : State) (f : Sup → Sup) : (s.modSup f).bme = s.bme := rfl
@[simp] theorem State.modSup_pcie (s : State) (f : Sup → Sup) : (s.modSup f).pcie = s.pcie := rfl
@[simp] theorem State.modSup_turn (s : State) (f : Sup → Sup) : (s.modSup f).turn = s.turn := rfl
@[simp] theorem State.modSup_legs (s : State) (f : Sup → Sup) : (s.modSup f).legs = s.legs := rfl
@[simp] theorem State.modSup_ain (s : State) (f : Sup → Sup) : (s.modSup f).ain = s.ain := rfl
@[simp] theorem State.modSup_cmps (s : State) (f : Sup → Sup) : (s.modSup f).cmps = s.cmps := rfl
@[simp] theorem State.modSup_groups (s : State) (f : Sup → Sup) : (s.modSup f).groups = s.groups := rfl
@[simp] theorem State.modSup_router (s : State) (f : Sup → Sup) : (s.modSup f).router = s.router := rfl
@[simp] theorem State.modSup_adc (s : State) (f : Sup → Sup) : (s.modSup f).adc = s.adc := rfl
@[simp] theorem State.modSup_picked (s : State) (f : Sup → Sup) : (s.modSup f).picked = s.picked := rfl
@[simp] theorem State.modSup_links (s : State) (f : Sup → Sup) : (s.modSup f).links = s.links := rfl
@[simp] theorem State.modSup_pods (s : State) (f : Sup → Sup) : (s.modSup f).pods = s.pods := rfl
@[simp] theorem State.modSup_wheel (s : State) (f : Sup → Sup) : (s.modSup f).wheel = s.wheel := rfl
@[simp] theorem State.modSup_grid (s : State) (f : Sup → Sup) : (s.modSup f).grid = s.grid := rfl
@[simp] theorem State.modSup_mtr (s : State) (f : Sup → Sup) : (s.modSup f).mtr = s.mtr := rfl
@[simp] theorem State.modSup_aux (s : State) (f : Sup → Sup) : (s.modSup f).aux = s.aux := rfl
@[simp] theorem State.modSup_unpredRegs (s : State) (f : Sup → Sup) : (s.modSup f).unpredRegs = s.unpredRegs := rfl
@[simp] theorem State.modSup_outbox (s : State) (f : Sup → Sup) : (s.modSup f).outbox = s.outbox := rfl
@[simp] theorem State.modSup_freeCount (s : State) (f : Sup → Sup) : (s.modSup f).freeCount = s.freeCount := rfl

@[simp] theorem State.pulse_pending (s : State) (src : Nat) : (s.pulse src).pending = s.pending := rfl
@[simp] theorem State.pulse_regs (s : State) (src : Nat) : (s.pulse src).regs = s.regs := rfl
@[simp] theorem State.pulse_time (s : State) (src : Nat) : (s.pulse src).time = s.time := rfl
@[simp] theorem State.pulse_age (s : State) (src : Nat) : (s.pulse src).age = s.age := rfl
@[simp] theorem State.pulse_fine (s : State) (src : Nat) : (s.pulse src).fine = s.fine := rfl
@[simp] theorem State.pulse_caps (s : State) (src : Nat) : (s.pulse src).caps = s.caps := rfl
@[simp] theorem State.pulse_lockNext (s : State) (src : Nat) : (s.pulse src).lockNext = s.lockNext := rfl
@[simp] theorem State.pulse_tick (s : State) (src : Nat) : (s.pulse src).tick = s.tick := rfl
@[simp] theorem State.pulse_tb (s : State) (src : Nat) : (s.pulse src).tb = s.tb := rfl
@[simp] theorem State.pulse_fuses (s : State) (src : Nat) : (s.pulse src).fuses = s.fuses := rfl
@[simp] theorem State.pulse_img (s : State) (src : Nat) : (s.pulse src).img = s.img := rfl
@[simp] theorem State.pulse_tiles (s : State) (src : Nat) : (s.pulse src).tiles = s.tiles := rfl
@[simp] theorem State.pulse_easels (s : State) (src : Nat) : (s.pulse src).easels = s.easels := rfl
@[simp] theorem State.pulse_f0 (s : State) (src : Nat) : (s.pulse src).f0 = s.f0 := rfl
@[simp] theorem State.pulse_f0Poll (s : State) (src : Nat) : (s.pulse src).f0Poll = s.f0Poll := rfl
@[simp] theorem State.pulse_f0PollStale (s : State) (src : Nat) : (s.pulse src).f0PollStale = s.f0PollStale := rfl
@[simp] theorem State.pulse_f0PollFrom (s : State) (src : Nat) : (s.pulse src).f0PollFrom = s.f0PollFrom := rfl
@[simp] theorem State.pulse_bme (s : State) (src : Nat) : (s.pulse src).bme = s.bme := rfl
@[simp] theorem State.pulse_pcie (s : State) (src : Nat) : (s.pulse src).pcie = s.pcie := rfl
@[simp] theorem State.pulse_turn (s : State) (src : Nat) : (s.pulse src).turn = s.turn := rfl
@[simp] theorem State.pulse_legs (s : State) (src : Nat) : (s.pulse src).legs = s.legs := rfl
@[simp] theorem State.pulse_ain (s : State) (src : Nat) : (s.pulse src).ain = s.ain := rfl
@[simp] theorem State.pulse_cmps (s : State) (src : Nat) : (s.pulse src).cmps = s.cmps := rfl
@[simp] theorem State.pulse_groups (s : State) (src : Nat) : (s.pulse src).groups = s.groups := rfl
@[simp] theorem State.pulse_adc (s : State) (src : Nat) : (s.pulse src).adc = s.adc := rfl
@[simp] theorem State.pulse_picked (s : State) (src : Nat) : (s.pulse src).picked = s.picked := rfl
@[simp] theorem State.pulse_links (s : State) (src : Nat) : (s.pulse src).links = s.links := rfl
@[simp] theorem State.pulse_pods (s : State) (src : Nat) : (s.pulse src).pods = s.pods := rfl
@[simp] theorem State.pulse_wheel (s : State) (src : Nat) : (s.pulse src).wheel = s.wheel := rfl
@[simp] theorem State.pulse_grid (s : State) (src : Nat) : (s.pulse src).grid = s.grid := rfl
@[simp] theorem State.pulse_mtr (s : State) (src : Nat) : (s.pulse src).mtr = s.mtr := rfl
@[simp] theorem State.pulse_aux (s : State) (src : Nat) : (s.pulse src).aux = s.aux := rfl
@[simp] theorem State.pulse_sup (s : State) (src : Nat) : (s.pulse src).sup = s.sup := rfl
@[simp] theorem State.pulse_unpredRegs (s : State) (src : Nat) : (s.pulse src).unpredRegs = s.unpredRegs := rfl
@[simp] theorem State.pulse_outbox (s : State) (src : Nat) : (s.pulse src).outbox = s.outbox := rfl
@[simp] theorem State.pulse_freeCount (s : State) (src : Nat) : (s.pulse src).freeCount = s.freeCount := rfl

end Sys2Proof.Machine
end

