-- ==== Sys2Proof/Laws/Registers.lean ====
section
/-! SUPPORT. Laws of register fields: read after write, and that a write of one field leaves every other field alone. -/

namespace Sys2Proof.Machine

/-- The register value as a number after a field has been replaced. -/
theorem Fld.insert_toNat (f : Fld) (v : Reg) (x : Nat) (hw : f.lo + f.width ≤ 32) :
    (f.insert v x).toNat = v.toNat % 2 ^ f.lo + x % 2 ^ f.width * 2 ^ f.lo
      + v.toNat / 2 ^ (f.lo + f.width) * 2 ^ (f.lo + f.width) := by
  have hv : v.toNat < 2 ^ 32 := v.isLt
  have h1 : v.toNat % 2 ^ f.lo < 2 ^ f.lo := Nat.mod_lt _ (Nat.two_pow_pos _)
  have h2 : x % 2 ^ f.width < 2 ^ f.width := Nat.mod_lt _ (Nat.two_pow_pos _)
  have hs : 2 ^ (f.lo + f.width) = 2 ^ f.width * 2 ^ f.lo := by rw [Nat.pow_add, Nat.mul_comm]
  have h3 : v.toNat % 2 ^ f.lo + x % 2 ^ f.width * 2 ^ f.lo < 2 ^ (f.lo + f.width) := by
    rw [hs]
    calc _ < 2 ^ f.lo + x % 2 ^ f.width * 2 ^ f.lo := by omega
      _ = (x % 2 ^ f.width + 1) * 2 ^ f.lo := by rw [Nat.add_mul, Nat.one_mul, Nat.add_comm]
      _ ≤ 2 ^ f.width * 2 ^ f.lo := Nat.mul_le_mul_right _ h2
  have hp : 2 ^ 32 = 2 ^ (f.lo + f.width) * 2 ^ (32 - (f.lo + f.width)) := by rw [← Nat.pow_add]; congr 1; omega
  have h4 : v.toNat / 2 ^ (f.lo + f.width) < 2 ^ (32 - (f.lo + f.width)) :=
    Nat.div_lt_of_lt_mul (by rw [← hp]; exact hv)
  unfold Fld.insert
  rw [BitVec.toNat_ofNat]
  apply Nat.mod_eq_of_lt
  calc _ < 2 ^ (f.lo + f.width) + v.toNat / 2 ^ (f.lo + f.width) * 2 ^ (f.lo + f.width) := by omega
    _ = (v.toNat / 2 ^ (f.lo + f.width) + 1) * 2 ^ (f.lo + f.width) := by rw [Nat.add_mul, Nat.one_mul, Nat.add_comm]
    _ ≤ 2 ^ (32 - (f.lo + f.width)) * 2 ^ (f.lo + f.width) := Nat.mul_le_mul_right _ h4
    _ = 2 ^ 32 := by rw [hp, Nat.mul_comm]

/-- What was written into a field is read back, as far as the field holds it. -/
theorem Fld.read_insert (f : Fld) (v : Reg) (x : Nat) (hw : f.lo + f.width ≤ 32) : f.read (f.insert v x) = x % 2 ^ f.width := by
  unfold Fld.read
  rw [Fld.insert_toNat f v x hw]
  have h1 : v.toNat % 2 ^ f.lo < 2 ^ f.lo := Nat.mod_lt _ (Nat.two_pow_pos _)
  have hs : 2 ^ (f.lo + f.width) = 2 ^ f.width * 2 ^ f.lo := by rw [Nat.pow_add, Nat.mul_comm]
  have e : v.toNat % 2 ^ f.lo + x % 2 ^ f.width * 2 ^ f.lo + v.toNat / 2 ^ (f.lo + f.width) * 2 ^ (f.lo + f.width)
      = v.toNat % 2 ^ f.lo + 2 ^ f.lo * (x % 2 ^ f.width + 2 ^ f.width * (v.toNat / 2 ^ (f.lo + f.width))) := by
    rw [hs, Nat.mul_add]; ac_rfl
  rw [e, Nat.add_mul_div_left _ _ (Nat.two_pow_pos _), Nat.div_eq_of_lt h1, Nat.zero_add, Nat.add_mul_mod_self_left,
    Nat.mod_mod]

/-- Two fields that do not overlap. -/
def Fld.Apart (f g : Fld) : Prop :=
  f.addr ≠ g.addr ∨ (f.rst = g.rst ∧ f.lo + f.width ≤ 32 ∧ g.lo + g.width ≤ 32
    ∧ (f.lo + f.width ≤ g.lo ∨ g.lo + g.width ≤ f.lo))

/-- Replacing a field leaves a field that does not overlap it alone. -/
theorem Fld.read_insert_apart (f g : Fld) (v : Reg) (x : Nat) (hf : f.lo + f.width ≤ 32)
    (h : f.lo + f.width ≤ g.lo ∨ g.lo + g.width ≤ f.lo) : g.read (f.insert v x) = g.read v := by
  have hb : ∀ i, f.lo + f.width ≤ i ∨ i < f.lo → (f.insert v x).toNat.testBit i = v.toNat.testBit i := by
    intro i hi
    rw [Fld.insert_toNat f v x hf]
    have h1 : v.toNat % 2 ^ f.lo < 2 ^ f.lo := Nat.mod_lt _ (Nat.two_pow_pos _)
    have h2 : x % 2 ^ f.width < 2 ^ f.width := Nat.mod_lt _ (Nat.two_pow_pos _)
    have hs : 2 ^ (f.lo + f.width) = 2 ^ f.width * 2 ^ f.lo := by rw [Nat.pow_add, Nat.mul_comm]
    have h3 : v.toNat % 2 ^ f.lo + x % 2 ^ f.width * 2 ^ f.lo < 2 ^ (f.lo + f.width) := by
      rw [hs]
      calc _ < 2 ^ f.lo + x % 2 ^ f.width * 2 ^ f.lo := by omega
        _ = (x % 2 ^ f.width + 1) * 2 ^ f.lo := by rw [Nat.add_mul, Nat.one_mul, Nat.add_comm]
        _ ≤ 2 ^ f.width * 2 ^ f.lo := Nat.mul_le_mul_right _ h2
    rcases hi with hi | hi
    · rw [Nat.testBit_eq_decide_div_mod_eq, Nat.testBit_eq_decide_div_mod_eq]
      have e : ∀ a b : Nat, a < 2 ^ (f.lo + f.width) → (a + b * 2 ^ (f.lo + f.width)) / 2 ^ i = b / 2 ^ (i - (f.lo + f.width)) := by
        intro a b ha
        have hp : 2 ^ i = 2 ^ (f.lo + f.width) * 2 ^ (i - (f.lo + f.width)) := by rw [← Nat.pow_add]; congr 1; omega
        rw [hp, ← Nat.div_div_eq_div_mul, Nat.add_mul_div_right _ _ (Nat.two_pow_pos _), Nat.div_eq_of_lt ha, Nat.zero_add]
      have hv : v.toNat = v.toNat % 2 ^ (f.lo + f.width) + v.toNat / 2 ^ (f.lo + f.width) * 2 ^ (f.lo + f.width) := by
        rw [Nat.mul_comm]; exact (Nat.mod_add_div _ _).symm
      rw [e _ _ h3]
      conv => rhs; rw [hv, e _ _ (Nat.mod_lt _ (Nat.two_pow_pos _))]
    · have e : v.toNat % 2 ^ f.lo + x % 2 ^ f.width * 2 ^ f.lo + v.toNat / 2 ^ (f.lo + f.width) * 2 ^ (f.lo + f.width)
          = v.toNat % 2 ^ f.lo + 2 ^ f.lo * (x % 2 ^ f.width + 2 ^ f.width * (v.toNat / 2 ^ (f.lo + f.width))) := by
        rw [hs, Nat.mul_add]; ac_rfl
      rw [e, Nat.add_comm, Nat.testBit_two_pow_mul_add _ h1]
      simp [hi, Nat.testBit_mod_two_pow]
  have hr : ∀ w : Reg, g.read w = w.toNat >>> g.lo % 2 ^ g.width := fun w => by
    simp [Fld.read, Nat.shiftRight_eq_div_pow]
  rw [hr, hr]
  apply Nat.eq_of_testBit_eq
  intro i
  rw [Nat.testBit_mod_two_pow, Nat.testBit_mod_two_pow, Nat.testBit_shiftRight, Nat.testBit_shiftRight]
  by_cases hi : i < g.width
  · rw [hb]; omega
  · simp [hi]

/-- A field reads what was written, as far as it holds it. -/
theorem State.get_set (s : State) (f : Fld) (x : Nat) (hw : f.lo + f.width ≤ 32) : (s.set f x).get f = x % 2 ^ f.width := by
  unfold State.get State.word State.set
  rw [Cells.get_put_same, Fld.read_insert f _ x hw]

/-- A write of a field leaves a field that does not overlap it alone. -/
theorem State.get_set_apart (s : State) (f g : Fld) (x : Nat) (h : f.Apart g) : (s.set f x).get g = s.get g := by
  unfold State.get State.word State.set
  by_cases ha : g.addr = f.addr
  · rcases h with h | ⟨hr, hf, _, hd⟩
    · exact absurd ha.symm h
    · rw [ha, ← hr, Cells.get_put_same, Fld.read_insert_apart f g _ x hf hd]; rfl
  · rw [Cells.get_put_other _ _ _ _ _ _ ha]

/-- A flag reads what was written. -/
theorem State.flag_setFlag (s : State) (f : Fld) (b : Bool) (hw : f.lo + f.width ≤ 32) (h1 : f.width = 1) :
    (s.setFlag f b).flag f = b := by
  unfold State.flag State.setFlag
  rw [State.get_set s f _ hw, h1]
  cases b <;> rfl

/-- Reading a field after a change of the registers alone in another register. -/
theorem State.word_set_other (s : State) (f g : Fld) (x : Nat) (h : g.addr ≠ f.addr) : (s.set f x).word g = s.word g := by
  unfold State.word State.set
  exact Cells.get_put_other _ _ _ _ _ _ h

/-- The field reads the reset value where its register is not listed. -/
theorem State.get_eq_of_regs (s t : State) (f : Fld) (h : t.regs = s.regs) : t.get f = s.get f := by
  unfold State.get State.word; rw [h]

end Sys2Proof.Machine
end

