-- ==== Sys2Proof/Laws/Keeps.lean ====
section
/-! SUPPORT. The footprint of the shared operations. Each lemma extends a footprint claim by one operation, so that a chain of
operations is followed by a chain of lemmas, from the last operation to the first. -/

namespace Sys2Proof.Machine

variable {w : Footprint} {s t : State}

theorem Keeps.refl (w : Footprint) (s : State) : Keeps w s s :=
  ⟨rfl, fun _ _ _ => rfl, fun _ _ => ⟨(s.ez _).evt, rfl⟩, fun _ _ => rfl,
    fun p _ => by cases p <;> first | exact ⟨rfl, rfl, rfl⟩ | exact ⟨rfl, rfl⟩ | exact rfl⟩

theorem Part.Same.trans {p : Part} {s t u : State} (h : p.Same s t) (g : p.Same t u) : p.Same s u := by
  cases p <;> first
    | exact ⟨g.1.trans h.1, g.2.1.trans h.2.1, g.2.2.trans h.2.2⟩
    | exact ⟨g.1.trans h.1, g.2.trans h.2⟩
    | exact Eq.trans g h

theorem Keeps.trans {u : State} (h : Keeps w s t) (g : Keeps w t u) : Keeps w s u where
  queue := g.queue.trans h.queue
  regs a ha hb := (g.regs a ha hb).trans (h.regs a ha hb)
  easels e he := by
    obtain ⟨q, hq⟩ := h.easels e he
    obtain ⟨r, hr⟩ := g.easels e he
    exact ⟨r, by rw [hr, hq]⟩
  legs l hl := (g.legs l hl).trans (h.legs l hl)
  parts p hp := (h.parts p hp).trans (g.parts p hp)

/-- A larger footprint. -/
theorem Keeps.mono {v : Footprint} (h : Keeps v s t) (hr : ∀ a, v.regs a = true → w.regs a = true)
    (he : ∀ e, v.easels e = true → w.easels e = true) (hl : ∀ l, v.legs l = true → w.legs l = true)
    (hp : ∀ p, v.parts.contains p = true → w.parts.contains p = true) : Keeps w s t where
  queue := h.queue
  regs a ha := h.regs a (by cases hv : v.regs a with | false => rfl | true => exact absurd (hr a hv) (by simp [ha]))
  easels e h' := h.easels e (by cases hv : v.easels e with | false => rfl | true => exact absurd (he e hv) (by simp [h']))
  legs l h' := h.legs l (by cases hv : v.legs l with | false => rfl | true => exact absurd (hl l hv) (by simp [h']))
  parts p h' := h.parts p (by
    cases hv : v.parts.contains p with
    | false => rfl
    | true => exact absurd (hp p hv) (by rw [h']; exact Bool.false_ne_true))

/-- A change of the registers alone. -/
theorem Keeps.regs_step {r : Cells Reg} (h : Keeps w s t)
    (hr : ∀ a, w.regs a = false → eventReg a = false →
      Cells.get (BitVec.ofNat 32 (regReset a)) a r = Cells.get (BitVec.ofNat 32 (regReset a)) a t.regs) :
    Keeps w s { t with regs := r } :=
  h.trans ⟨rfl, hr, fun e _ => ⟨(t.ez e).evt, rfl⟩, fun _ _ => rfl,
    fun p _ => by cases p <;> first | exact ⟨rfl, rfl, rfl⟩ | exact ⟨rfl, rfl⟩ | exact rfl⟩

theorem Keeps.set (h : Keeps w s t) (f : Fld) (x : Nat) (hf : w.regs f.addr = true ∨ eventReg f.addr = true) :
    Keeps w s (t.set f x) :=
  h.regs_step fun a ha hb => Cells.get_put_other _ _ _ _ _ _ fun e => by
    subst e; rcases hf with hf | hf
    · rw [ha] at hf; cases hf
    · rw [hb] at hf; cases hf

theorem Keeps.setFlag (h : Keeps w s t) (f : Fld) (b : Bool) (hf : w.regs f.addr = true ∨ eventReg f.addr = true) :
    Keeps w s (t.setFlag f b) := h.set f _ hf

theorem Keeps.setBit (h : Keeps w s t) (f : Fld) (i : Nat) (b : Bool) (hf : w.regs f.addr = true ∨ eventReg f.addr = true) :
    Keeps w s (t.setBit f i b) := h.set f _ hf

/-- The books of the coarse tick are in every footprint. -/
theorem Keeps.tick (h : Keeps w s t) (k : TickBooks) : Keeps w s { t with tick := k } :=
  h.trans ⟨rfl, fun _ _ _ => rfl, fun e _ => ⟨(t.ez e).evt, rfl⟩, fun _ _ => rfl,
    fun p _ => by cases p <;> first | exact ⟨rfl, rfl, rfl⟩ | exact ⟨rfl, rfl⟩ | exact rfl⟩

/-- So is the staging of the F0 ring. -/
theorem Keeps.f0 (h : Keeps w s t) (q : Staging EventE) : Keeps w s { t with f0 := q } :=
  h.trans ⟨rfl, fun _ _ _ => rfl, fun e _ => ⟨(t.ez e).evt, rfl⟩, fun _ _ => rfl,
    fun p _ => by cases p <;> first | exact ⟨rfl, rfl, rfl⟩ | exact ⟨rfl, rfl⟩ | exact rfl⟩

theorem Keeps.raiseBit (h : Keeps w s t) (f : Fld) (i : Nat) (hf : w.regs f.addr = true ∨ eventReg f.addr = true) :
    Keeps w s (t.raiseBit f i) := (h.setBit f i true hf).tick _

theorem Keeps.raise (h : Keeps w s t) (f : Fld) (hf : w.regs f.addr = true ∨ eventReg f.addr = true) :
    Keeps w s (t.raise f) := h.raiseBit f 0 hf

theorem Keeps.noteCount (h : Keeps w s t) (f : Fld) : Keeps w s (t.noteCount f) := h.tick _

theorem ez_modEz (s : State) (e d : Fin 8) (f : Easel → Easel) : (s.modEz e f).ez d = if d = e then f (s.ez e) else s.ez d := by
  by_cases hd : d = e
  · subst hd; simp [State.ez, State.modEz, upd]
  · have hv : e.val ≠ d.val := fun x => hd (Fin.ext x.symm)
    simp [State.ez, State.modEz, upd, hd, hv]

theorem Keeps.modEz (h : Keeps w s t) (e : Fin 8) (f : Easel → Easel)
    (hf : w.easels e = true ∨ ∃ q, f (t.ez e) = { t.ez e with evt := q }) : Keeps w s (t.modEz e f) :=
  h.trans ⟨rfl, fun _ _ _ => rfl, fun d hd => by
    rw [ez_modEz]
    by_cases hde : d = e
    · subst hde
      rcases hf with hf | ⟨q, hq⟩
      · rw [hd] at hf; cases hf
      · exact ⟨q, by rw [if_pos rfl, hq]⟩
    · exact ⟨(t.ez d).evt, by rw [if_neg hde]⟩, fun _ _ => rfl,
    fun p _ => by cases p <;> first | exact ⟨rfl, rfl, rfl⟩ | exact ⟨rfl, rfl⟩ | exact rfl⟩

theorem Keeps.modLeg (h : Keeps w s t) (l : Fin 64) (f : Leg → Leg) (hl : w.legs l = true) : Keeps w s (t.modLeg l f) :=
  h.trans ⟨rfl, fun _ _ _ => rfl, fun e _ => ⟨(t.ez e).evt, rfl⟩, fun k hk => by
    have hv : l.val ≠ k.val := fun x => by rw [show k = l from Fin.ext x.symm, hl] at hk; cases hk
    simp [State.modLeg, upd, hv],
    fun p _ => by cases p <;> first | exact ⟨rfl, rfl, rfl⟩ | exact ⟨rfl, rfl⟩ | exact rfl⟩

/-- A router pulse (R251). -/
theorem Keeps.pulse (h : Keeps w s t) (src : Nat) (hp : w.parts.contains .router = true) : Keeps w s (t.pulse src) :=
  h.trans ⟨rfl, fun _ _ _ => rfl, fun e _ => ⟨(t.ez e).evt, rfl⟩, fun _ _ => rfl, fun p hq => by
    cases p <;> first
      | exact ⟨rfl, rfl, rfl⟩ | exact ⟨rfl, rfl⟩ | exact rfl | (rw [hp] at hq; cases hq)⟩

/-! ## Events and counters -/

theorem eventReg_gap (e : Fin 8) : eventReg (R.RING_STATUS_EVT_GAP e).addr = true := by
  revert e; decide
theorem eventReg_ovf (e : Fin 8) : eventReg (R.RING_STATUS_EVT_DROP_OVF e).addr = true := by
  revert e; decide
theorem eventReg_cnt (e : Fin 8) : eventReg (R.EVT_DROP_CNT_COUNT e).addr = true := by
  revert e; decide
theorem eventReg_f0 : eventReg R.F0_RING_STATUS_EVT_GAP.addr = true := by decide

theorem Keeps.dropEvent (h : Keeps w s t) (e : Fin 8) (x : Stamp) : Keeps w s (t.dropEvent e x) := by
  have hm : ∀ u : State, Keeps w s u → ∀ q : Easel → Staging EventE, Keeps w s (u.modEz e fun z => { z with evt := q z }) :=
    fun u hu q => hu.modEz e _ (.inr ⟨q (u.ez e), rfl⟩)
  have h1 := ((hm t h fun z => z.evt.drop x).raise (R.RING_STATUS_EVT_GAP e) (.inr (eventReg_gap e))).noteCount
    (R.EVT_DROP_CNT_COUNT e)
  unfold State.dropEvent
  dsimp only
  split
  · exact h1.set _ _ (.inr (eventReg_cnt e))
  · have h2 := (h1.set (R.EVT_DROP_CNT_COUNT e) 0 (.inr (eventReg_cnt e))).raise (R.RING_STATUS_EVT_DROP_OVF e)
      (.inr (eventReg_ovf e))
    split
    · next q _ => exact hm _ h2 fun _ => q
    · exact (hm _ h2 fun z => z.evt.drop x).set _ _ (.inr (eventReg_cnt e))

theorem Keeps.postEaselAt (h : Keeps w s t) (x : Time) (e : Fin 8) (c : Nat) (a : List (BitVec 64)) :
    Keeps w s (t.postEaselAt x e c a) := by
  unfold State.postEaselAt
  split
  · next q _ => exact h.modEz e _ (.inr ⟨q, rfl⟩)
  · exact h.dropEvent e _

theorem Keeps.postEasel (h : Keeps w s t) (e : Fin 8) (c : Nat) (a : List (BitVec 64)) : Keeps w s (t.postEasel e c a) :=
  h.postEaselAt _ e c a

theorem Keeps.postF0For (h : Keeps w s t) (o : Option (Fin 8)) (c : Nat) (a : List (BitVec 64)) :
    Keeps w s (t.postF0For o c a) := by
  unfold State.postF0For
  dsimp only
  split
  · exact h.f0 _
  · exact (h.f0 _).raise _ (.inr eventReg_f0)

theorem Keeps.postF0 (h : Keeps w s t) (c : Nat) (a : List (BitVec 64)) : Keeps w s (t.postF0 c a) := h.postF0For none c a

theorem Keeps.postOwner (h : Keeps w s t) (o : Option (Fin 8)) (c : Nat) (a : List (BitVec 64)) :
    Keeps w s (t.postOwner o c a) := by
  unfold State.postOwner
  split
  · exact h.postEasel _ c a
  · exact h.postF0 c a

theorem Keeps.bumpW (h : Keeps w s t) (f k : Fld) (hf : w.regs f.addr = true ∨ eventReg f.addr = true)
    (hk : w.regs k.addr = true ∨ eventReg k.addr = true) : Keeps w s (t.bumpW f k) := by
  unfold State.bumpW
  dsimp only
  split
  · exact (h.noteCount f).set f _ hf
  · exact (((h.noteCount f).set f 0 hf).raise k hk).postOwner _ _ _

theorem Keeps.bumpS (h : Keeps w s t) (f : Fld) (hf : w.regs f.addr = true ∨ eventReg f.addr = true) :
    Keeps w s (t.bumpS f) := by
  unfold State.bumpS
  dsimp only
  split
  · exact h.noteCount f
  · split
    · exact ((h.noteCount f).set f _ hf).postOwner _ _ _
    · exact (h.noteCount f).set f _ hf

theorem Keeps.bumpK (h : Keeps w s t) (f : Fld) (hf : w.regs f.addr = true ∨ eventReg f.addr = true) :
    Keeps w s (t.bumpK f) := (h.noteCount f).set f _ hf

/-! ## Repetition -/

/-- A property that every application of `f` keeps holds after all of them. -/
theorem forAll_keeps {α : Type} {n : Nat} {f : Fin n → α → α} {P : α → Prop} (h : ∀ i a, P a → P (f i a)) (a : α)
    (ha : P a) : P (forAll n f a) := by
  unfold forAll
  generalize fins n = l
  induction l generalizing a with
  | nil => exact ha
  | cons i t ih => exact ih (f i a) (h i a ha)

theorem foldl_keeps {α β : Type} {f : α → β → α} {P : α → Prop} (h : ∀ a b, P a → P (f a b)) (l : List β) (a : α)
    (ha : P a) : P (l.foldl f a) := by
  induction l generalizing a with
  | nil => exact ha
  | cons b t ih => exact ih (f a b) (h a b ha)

theorem Keeps.forAll {n : Nat} {f : Fin n → State → State} (h : Keeps w s t)
    (hf : ∀ i u, Keeps w s u → Keeps w s (f i u)) : Keeps w s (forAll n f t) := forAll_keeps hf t h

theorem Keeps.foldl {β : Type} {f : State → β → State} (h : Keeps w s t) (l : List β)
    (hf : ∀ u b, Keeps w s u → Keeps w s (f u b)) : Keeps w s (l.foldl f t) := foldl_keeps hf l t h

/-! ## Fields outside a footprint -/

/-- A field whose register lies outside the footprint reads as before. -/
theorem Keeps.get (h : Keeps w s t) (f : Fld) (hr : f.rst = regReset f.addr) (hf : w.regs f.addr = false)
    (he : eventReg f.addr = false) : t.get f = s.get f := by
  have := h.regs f.addr hf he
  unfold State.raw at this
  unfold State.get State.word
  rw [hr, this]

end Sys2Proof.Machine
end

