-- ==== Sys2Proof/Laws/Memory.lean ====
section
/-! SUPPORT. Every operation over the memories of an easel keeps their canonical form. -/

namespace Sys2Proof

theorem Cells.wf_filter {α : Type} [DecidableEq α] (d : Nat → α) (p : Nat × α → Bool) (l : Cells α)
    (h : Cells.wf d l = true) : Cells.wf d (l.filter p) = true := by
  simp only [Cells.wf, Bool.and_eq_true] at h ⊢
  obtain ⟨h1, h2⟩ := h
  generalize 0 = b at h1 ⊢
  induction l generalizing b with
  | nil => exact ⟨rfl, rfl⟩
  | cons a t ih =>
    simp only [Cells.rising, Cells.lean, Bool.and_eq_true, decide_eq_true_eq] at h1 h2
    obtain ⟨i1, i2⟩ := ih h2.2 (a.1 + 1) h1.2
    rw [List.filter_cons]
    split
    · simp only [Cells.rising, Cells.lean, Bool.and_eq_true, decide_eq_true_eq]
      exact ⟨⟨h1.1, i1⟩, h2.1, i2⟩
    · exact ⟨Cells.rising_mono _ _ _ (by omega) i1, i2⟩

namespace Machine

/-- The memories of all easels are in canonical form. -/
def State.MemsCanonical (s : State) : Prop := ∀ e : Fin 8, (s.ez e).MemCanonical

variable {s : State}

/-- The footprint of a command that leaves the memories alone. -/
def noMemory : Footprint := { regs := fun _ => true, legs := fun _ => true }

/-- A step that touches an easel only in its event staging keeps the form. -/
theorem State.MemsCanonical.of_keeps {w : Footprint} {t : State} (h : s.MemsCanonical) (k : Keeps w s t)
    (hw : ∀ e, w.easels e = false) : t.MemsCanonical := fun e => by
  obtain ⟨q, hq⟩ := k.easels e (hw e)
  rw [hq]; exact h e

/-- A change of one easel that keeps the form of its memory keeps the form of all. -/
theorem State.MemsCanonical.modEz (h : s.MemsCanonical) (e : Fin 8) (f : Easel → Easel)
    (hf : (s.ez e).MemCanonical → (f (s.ez e)).MemCanonical) : (s.modEz e f).MemsCanonical := fun d => by
  rw [ez_modEz]
  split
  · exact hf (h e)
  · exact h d

/-- A change of one easel outside its memory. -/
theorem State.MemsCanonical.beside (h : s.MemsCanonical) (e : Fin 8) (f : Easel → Easel) (hf : ∀ z, (f z).mem = z.mem) :
    (s.modEz e f).MemsCanonical :=
  h.modEz e f fun hz => by unfold Easel.MemCanonical; rw [hf]; exact hz

/-- A choice between two states. -/
theorem State.MemsCanonical.either {c : Prop} [Decidable c] (h : s.MemsCanonical) {t : State} (g : t.MemsCanonical) :
    (if c then t else s).MemsCanonical := by
  split
  · exact g
  · exact h

theorem State.MemsCanonical.set (h : s.MemsCanonical) (f : Fld) (x : Nat) : (s.set f x).MemsCanonical := fun e => h e

theorem State.MemsCanonical.setFlag (h : s.MemsCanonical) (f : Fld) (b : Bool) : (s.setFlag f b).MemsCanonical := fun e => h e

theorem State.MemsCanonical.raise (h : s.MemsCanonical) (f : Fld) : (s.raise f).MemsCanonical := fun e => h e

theorem State.MemsCanonical.postEasel (h : s.MemsCanonical) (e : Fin 8) (c : Nat) (a : List (BitVec 64)) :
    (s.postEasel e c a).MemsCanonical :=
  h.of_keeps ((Keeps.refl noMemory s).postEasel e c a) fun _ => rfl

theorem State.MemsCanonical.bumpS (h : s.MemsCanonical) (f : Fld) : (s.bumpS f).MemsCanonical :=
  h.of_keeps ((Keeps.refl noMemory s).bumpS f (.inl rfl)) fun _ => rfl

theorem State.MemsCanonical.bumpK (h : s.MemsCanonical) (f : Fld) : (s.bumpK f).MemsCanonical :=
  h.of_keeps ((Keeps.refl noMemory s).bumpK f (.inl rfl)) fun _ => rfl

theorem State.MemsCanonical.countCe (h : s.MemsCanonical) (e : Fin 8) : (s.countCe e).MemsCanonical := (h.bumpS _).raise _

theorem State.MemsCanonical.countUe (h : s.MemsCanonical) (e : Fin 8) (a : Nat) : (s.countUe e a).MemsCanonical := by
  have h1 : ((s.bumpS (R.ECC_CNT_UE_CNT e)).raise (R.MEM_STATUS_UE e)).MemsCanonical := (h.bumpS _).raise _
  unfold State.countUe
  refine State.MemsCanonical.postEasel (State.MemsCanonical.setFlag (State.MemsCanonical.set (State.MemsCanonical.set ?_ _ _) _ _) _ _)
    _ _ _
  split
  · exact h1
  · exact fun d => h1 d

theorem Easel.MemCanonical.write {z : Easel} (h : z.MemCanonical) (a : Nat) (p : Phys) :
    Easel.MemCanonical { z with mem := Cells.put vacantPhys a p z.mem } :=
  Cells.wf_put (fun _ => vacantPhys) a p z.mem h

theorem State.MemsCanonical.putArray (h : s.MemsCanonical) (e : Fin 8) (a : Nat) (p : Phys) : (s.putArray e a p).MemsCanonical :=
  h.modEz e _ fun hz => hz.write a p

/-- A write of a physical word. -/
theorem State.MemsCanonical.putPhys (h : s.MemsCanonical) (e : Fin 8) (a : Nat) (p : Phys) : (s.putPhys e a p).MemsCanonical := by
  have hb := h.beside e (fun z => { z with btest := { z.btest with buf := Cells.put vacantPhys a p z.btest.buf } }) fun _ => rfl
  unfold State.putPhys
  dsimp only
  split
  · exact h.beside e _ fun _ => rfl
  · split
    · split
      · exact hb
      · exact hb.putArray e a p
    · exact h.putArray e a p

theorem State.MemsCanonical.readFound (h : s.MemsCanonical) (e : Fin 8) (a : Nat) (d : Decoded) :
    (s.readFound e a d).2.MemsCanonical := by
  cases d
  · exact h
  · exact (h.putPhys e a _).countCe e
  · exact h.countUe e a

/-- A read of a memory word, with the write-back of a corrected error. -/
theorem State.MemsCanonical.readMem (h : s.MemsCanonical) (e : Fin 8) (a : Nat) : (s.readMem e a).2.MemsCanonical :=
  h.readFound e a _

/-- The release of the pass-local words. -/
theorem Easel.MemCanonical.clearLocal {z : Easel} (h : z.MemCanonical) : z.clearLocal.MemCanonical :=
  Cells.wf_filter (fun _ => vacantPhys) _ z.mem h

/-! ## The transparent test -/

theorem State.MemsCanonical.modTest (h : s.MemsCanonical) (e : Fin 8) (f : BTest → BTest) : (s.modTest e f).MemsCanonical :=
  h.beside e _ fun _ => rfl

theorem State.MemsCanonical.park (h : s.MemsCanonical) (e : Fin 8) (a b : Nat) : (s.park e a b).MemsCanonical := by
  unfold State.park
  exact (((((((h.modTest e _).setFlag _ _).raise _).setFlag _ _).set _ _).set _ _).set _ _).postEasel _ _ _

theorem State.MemsCanonical.testKeep (h : s.MemsCanonical) (e : Fin 8) (a : Nat) (p : Phys) :
    (s.testKeep e a p).MemsCanonical := h.modTest e _

theorem State.MemsCanonical.saveFound (h : s.MemsCanonical) (e : Fin 8) (a : Nat) (p : Phys) (d : Decoded) :
    (s.saveFound e a p d).MemsCanonical := by
  cases d
  · exact h.testKeep e a _
  · exact ((h.putArray e a _).countCe e).testKeep e a _
  · exact (h.countUe e a).testKeep e a _

theorem State.MemsCanonical.testSave (h : s.MemsCanonical) (e : Fin 8) (a : Nat) : (s.testSave e a).MemsCanonical :=
  h.saveFound e a _ _

theorem State.MemsCanonical.regionNext (h : s.MemsCanonical) (e : Fin 8) : (s.regionNext e).MemsCanonical := by
  unfold State.regionNext
  exact (h.modTest e _).either ((h.modTest e _).bumpK _)

theorem State.MemsCanonical.regionEnd (h : s.MemsCanonical) (e : Fin 8) : (s.regionEnd e).MemsCanonical :=
  ((h.modTest e _).setFlag _ _).regionNext e

theorem State.MemsCanonical.testAct (h : s.MemsCanonical) (e : Fin 8) (a : Nat) (p : Phys) (d : BitVec 48) (t : TestAccess) :
    (s.testAct e a p d t).MemsCanonical := by
  unfold State.testAct
  split
  · exact h.testSave e a
  · split
    · exact h
    · exact h.park e a _
  · exact h
  · exact h.putArray e a p
  · dsimp only
    split
    · exact h
    · exact h.park e a _

/-- One access of the test engine. -/
theorem State.MemsCanonical.testStep (h : s.MemsCanonical) (e : Fin 8) (x : Fin 16) (d : BitVec 48) :
    (s.testStep e x d).MemsCanonical := by
  unfold State.testStep
  dsimp only
  split
  · exact ((h.modTest e _).testAct e _ _ d _).regionEnd e
  · exact (h.modTest e _).testAct e _ _ d _

/-- The pause of the test at hold entry. -/
theorem State.MemsCanonical.testPause (h : s.MemsCanonical) (e : Fin 8) : (s.testPause e).MemsCanonical := by
  unfold State.testPause
  split
  · refine State.MemsCanonical.setFlag (State.MemsCanonical.modTest (h.modEz e _ fun hz => ?_) e _) _ _
    exact foldl_keeps (P := fun m => Cells.wf (fun _ => vacantPhys) m = true)
      (fun m b hm => Cells.wf_put (fun _ => vacantPhys) b.1 b.2 m hm) _ _ hz
  · exact h

end Machine

end Sys2Proof
end

