-- ==== Sys2Proof/WellFormed.lean ====
section
/-! DEFINITION. Which commands are well formed: operands that the types do not bound already. -/

namespace Sys2Proof

/-- Is an internal address that of a 32-bit register (R379)? -/
def wordAddress (a : BitVec 24) : Bool := a.toNat % 4 == 0

/-- The low registers of the capturing pairs (R384), by internal address: TB_TIME, DB_COUNT and EASEL_TIME of a window, LDG_IDX,
MACC00, UQ_L, and the last two in the metering alias of a window (R382). -/
def capturing (a : BitVec 24) : Bool :=
  let n := a.toNat
  let o := n % 0x10000
  n == 0x1008 || n == 0x9A00 || n == 0x9B8C || (decide (0x5000 ≤ n) && decide (n < 0x5100) && n % 0x20 == 0)
    || (decide (0x800000 ≤ n) && decide (n < 0x880000) && (o == 0x110 || o == 0x118 || o == 0x3200 || o == 0x338C))

/-- The registers of resource owners (R109). -/
def ownerRegister (a : BitVec 24) : Bool := decide (0x3000 ≤ a.toNat) && decide (a.toNat < 0x3090) && wordAddress a

/-- Well-formed commands. -/
def Instr.wellFormed (i : Instr) : Bool :=
  match i with
  | .captureRead _ addr _ => capturing addr
  | .ownerWrite _ addr _ => ownerRegister addr
  | .setupRegisterWrite _ addr be _ => wordAddress addr && be != 0
  | .stagingDrain ring kind => !(ring == .f0 && kind == .sample)
  | .adcStepLand _ _ codes => !codes.isEmpty
  | .trefQualified span _ => decide (0 < span)
  | .qualifyCycle p => decide (0 < p)
  | _ => true

end Sys2Proof
end

