-- ==== Sys2Proof/Laws/PerInstr.lean ====
section
/-! SUPPORT. Form, per command: only the commands with a checked operand can be ill formed. -/

namespace Sys2Proof.Laws.Form

/-- The commands with an operand that their type does not bound already. -/
def checked (i : Instr) : Bool :=
  match i with
  | .captureRead _ _ _ => true
  | .ownerWrite _ _ _ => true
  | .setupRegisterWrite _ _ _ _ => true
  | .stagingDrain _ _ => true
  | .adcStepLand _ _ _ => true
  | .trefQualified _ _ => true
  | .qualifyCycle _ => true
  | _ => false

/-- A command that is not well formed has a checked operand. -/
def Statement (i : Instr) : Prop := i.wellFormed = false → checked i = true

theorem downbeat (e : Fin 8) : Statement (.downbeat e) := fun h => by cases h
theorem inputDeadline (e : Fin 8) (i : Fin 64) : Statement (.inputDeadline e i) := fun h => by cases h
theorem fenceReached (e : Fin 8) : Statement (.fenceReached e) := fun h => by cases h
theorem tempoWindowEnd (trips : Vector Nat 16) : Statement (.tempoWindowEnd trips) := fun h => by cases h
theorem boscTrim (word : Int) : Statement (.boscTrim word) := fun h => by cases h
theorem fineCalibration (n : BitVec 9) : Statement (.fineCalibration n) := fun h => by cases h
theorem captureRead (by_ : Agent) (addr : BitVec 24) (be : BitVec 4) : Statement (.captureRead by_ addr be) := fun _ => rfl
theorem runSet (e : Fin 8) (by_ : Agent) : Statement (.runSet e by_) := fun h => by cases h
theorem runClear (e : Fin 8) (by_ : Agent) : Statement (.runClear e by_) := fun h => by cases h
theorem trefLoss (seen : TrefView) : Statement (.trefLoss seen) := fun h => by cases h
theorem refBlendStep : Statement .refBlendStep := fun h => by cases h
theorem refBlendComplete : Statement .refBlendComplete := fun h => by cases h
theorem qualifyStart : Statement .qualifyStart := fun h => by cases h
theorem trefQualified (span : Nat) (word : Int) : Statement (.trefQualified span word) := fun _ => rfl
theorem trefModeWrite (by_ : Agent) (mode : BitVec 2) : Statement (.trefModeWrite by_ mode) := fun h => by cases h
theorem trefEnWrite (by_ : Agent) (on : Bool) : Statement (.trefEnWrite by_ on) := fun h => by cases h
theorem forceBoscWrite (by_ : Agent) (on : Bool) : Statement (.forceBoscWrite by_ on) := fun h => by cases h
theorem imageLoad (by_ : Agent) : Statement (.imageLoad by_) := fun h => by cases h
theorem imageDmaComplete (data : Option (List (BitVec 64))) : Statement (.imageDmaComplete data) := fun h => by cases h
theorem imageVerifyComplete : Statement .imageVerifyComplete := fun h => by cases h
theorem swap (by_ : Agent) : Statement (.swap by_) := fun h => by cases h
theorem swapTimeReached : Statement .swapTimeReached := fun h => by cases h
theorem forceLimp (e : Fin 8) (by_ : Agent) : Statement (.forceLimp e by_) := fun h => by cases h
theorem forceHrd (e : Fin 8) (by_ : Agent) : Statement (.forceHrd e by_) := fun h => by cases h
theorem tileRunStart (t : Fin 16) : Statement (.tileRunStart t) := fun h => by cases h
theorem nop (t : Fin 16) : Statement (.nop t) := fun h => by cases h
theorem mov (t : Fin 16) : Statement (.mov t) := fun h => by cases h
theorem add (t : Fin 16) : Statement (.add t) := fun h => by cases h
theorem sub (t : Fin 16) : Statement (.sub t) := fun h => by cases h
theorem min (t : Fin 16) : Statement (.min t) := fun h => by cases h
theorem max (t : Fin 16) : Statement (.max t) := fun h => by cases h
theorem abs (t : Fin 16) : Statement (.abs t) := fun h => by cases h
theorem neg (t : Fin 16) : Statement (.neg t) := fun h => by cases h
theorem clamp (t : Fin 16) : Statement (.clamp t) := fun h => by cases h
theorem sel (t : Fin 16) : Statement (.sel t) := fun h => by cases h
theorem cmplt (t : Fin 16) : Statement (.cmplt t) := fun h => by cases h
theorem cmple (t : Fin 16) : Statement (.cmple t) := fun h => by cases h
theorem shl (t : Fin 16) : Statement (.shl t) := fun h => by cases h
theorem shr (t : Fin 16) : Statement (.shr t) := fun h => by cases h
theorem ldi (t : Fin 16) : Statement (.ldi t) := fun h => by cases h
theorem macz (t : Fin 16) : Statement (.macz t) := fun h => by cases h
theorem mac (t : Fin 16) : Statement (.mac t) := fun h => by cases h
theorem msu (t : Fin 16) : Statement (.msu t) := fun h => by cases h
theorem accst (t : Fin 16) : Statement (.accst t) := fun h => by cases h
theorem muls32 (t : Fin 16) : Statement (.muls32 t) := fun h => by cases h
theorem integ (t : Fin 16) : Statement (.integ t) := fun h => by cases h
theorem sin (t : Fin 16) : Statement (.sin t) := fun h => by cases h
theorem cos (t : Fin 16) : Statement (.cos t) := fun h => by cases h
theorem chk (t : Fin 16) : Statement (.chk t) := fun h => by cases h
theorem checkTrigger (e : Fin 8) : Statement (.checkTrigger e) := fun h => by cases h
theorem release (e : Fin 8) (by_ : Agent) : Statement (.release e by_) := fun h => by cases h
theorem ownerWrite (by_ : Agent) (addr : BitVec 24) (value : BitVec 32) : Statement (.ownerWrite by_ addr value) :=
    fun _ => rfl
theorem easelReset (e : Fin 8) (cause : ResetCause) : Statement (.easelReset e cause) := fun h => by cases h
theorem easelResetComplete (e : Fin 8) : Statement (.easelResetComplete e) := fun h => by cases h
theorem btestAccess (e : Fin 8) (sub : Fin 16) (defect : BitVec 48) : Statement (.btestAccess e sub defect) :=
    fun h => by cases h
theorem btestResume (e : Fin 8) (by_ : Agent) : Statement (.btestResume e by_) := fun h => by cases h
theorem doorbellReadComplete (e : Fin 8) (hcb : Option (Vector (BitVec 64) 4)) : Statement (.doorbellReadComplete e hcb) :=
    fun h => by cases h
theorem descriptorAccept (e : Fin 8) (d : Vector (BitVec 64) 8) : Statement (.descriptorAccept e d) := fun h => by cases h
theorem dmaReadFail (e : Fin 8) : Statement (.dmaReadFail e) := fun h => by cases h
theorem headPoll (ring : RingId) : Statement (.headPoll ring) := fun h => by cases h
theorem headPollComplete (ring : RingId) (heads : Option (Vector (BitVec 64) 3)) : Statement (.headPollComplete ring heads) :=
    fun h => by cases h
theorem completionWrite (e : Fin 8) : Statement (.completionWrite e) := fun h => by cases h
theorem stagingDrain (ring : RingId) (kind : StageKind) : Statement (.stagingDrain ring kind) := fun _ => rfl
theorem ringEn (e : Fin 8) (by_ : Agent) (on : Bool) : Statement (.ringEn e by_ on) := fun h => by cases h
theorem f0RingEn (by_ : Agent) (on : Bool) : Statement (.f0RingEn by_ on) := fun h => by cases h
theorem linkFault (cause : LinkCause) : Statement (.linkFault cause) := fun h => by cases h
theorem linkUp (speed : BitVec 2) (width : BitVec 2) (bme msixEn msixMask payload256 : BitVec 9) :
    Statement (.linkUp speed width bme msixEn msixMask payload256) :=
    fun h => by cases h
theorem functionLevelReset : Statement (.functionLevelReset fn) := fun h => by cases h
theorem descriptorNop (e : Fin 8) : Statement (.descriptorNop e) := fun h => by cases h
theorem stateWr (e : Fin 8) : Statement (.stateWr e) := fun h => by cases h
theorem bankWr (e : Fin 8) : Statement (.bankWr e) := fun h => by cases h
theorem stateRd (e : Fin 8) : Statement (.stateRd e) := fun h => by cases h
theorem bankRd (e : Fin 8) : Statement (.bankRd e) := fun h => by cases h
theorem bankReadComplete (e : Fin 8) (stalled : Fin 6) : Statement (.bankReadComplete e stalled) := fun h => by cases h
theorem ledgerAbort (e : Fin 8) (by_ : Agent) : Statement (.ledgerAbort e by_) := fun h => by cases h
theorem ldgSelWrite (by_ : Agent) (value : BitVec 32) : Statement (.ldgSelWrite by_ value) := fun h => by cases h
theorem adcTrigger (p : Fin 8) (q : Fin 4) : Statement (.adcTrigger p q) := fun h => by cases h
theorem sequenceStart (p : Fin 8) (c : Fin 2) : Statement (.sequenceStart p c) := fun h => by cases h
theorem adcStepLand (p : Fin 8) (c : Fin 2) (codes : List (BitVec 14)) : Statement (.adcStepLand p c codes) := fun _ => rfl
theorem cal (p : Fin 8) (by_ : Agent) : Statement (.cal p by_) := fun h => by cases h
theorem calDone (p : Fin 8) (found : Option (BitVec 32 × BitVec 32)) : Statement (.calDone p found) := fun h => by cases h
theorem podSampleLand (p : Fin 16) : Statement (.podSampleLand p) := fun h => by cases h
theorem align (p : Fin 16) (frame : BitVec 40) : Statement (.align p frame) := fun h => by cases h
theorem echo (p : Fin 16) (frame : BitVec 40) : Statement (.echo p frame) := fun h => by cases h
theorem downlinkWrite (p : Fin 16) (frame : BitVec 40) : Statement (.downlinkWrite p frame) := fun h => by cases h
theorem downlinkRead (p : Fin 16) (frame : BitVec 40) (live : PodLive) : Statement (.downlinkRead p frame live) :=
    fun h => by cases h
theorem downlinkReset (p : Fin 16) (frame : BitVec 40) (still : BitVec 8) : Statement (.downlinkReset p frame still) := fun h => by cases h
theorem podOutput (p : Fin 16) (c : Fin 4) (value : BitVec 24) (overload : Bool) : Statement (.podOutput p c value overload) :=
    fun h => by cases h
theorem uplinkWordStart (p : Fin 16) (live : PodLive) : Statement (.uplinkWordStart p live) := fun h => by cases h
theorem statusDue (p : Fin 16) : Statement (.statusDue p) := fun h => by cases h
theorem sampleWord (p : Fin 16) (chips : BitVec 64) : Statement (.sampleWord p chips) := fun h => by cases h
theorem hello (p : Fin 16) (chips : BitVec 64) : Statement (.hello p chips) := fun h => by cases h
theorem status (p : Fin 16) (chips : BitVec 64) : Statement (.status p chips) := fun h => by cases h
theorem readRsp (p : Fin 16) (chips : BitVec 64) : Statement (.readRsp p chips) := fun h => by cases h
theorem writeAck (p : Fin 16) (chips : BitVec 64) : Statement (.writeAck p chips) := fun h => by cases h
theorem alarm (p : Fin 16) (chips : BitVec 64) : Statement (.alarm p chips) := fun h => by cases h
theorem echoRsp (p : Fin 16) (chips : BitVec 64) : Statement (.echoRsp p chips) := fun h => by cases h
theorem podPgRise (p : Fin 16) : Statement (.podPgRise p) := fun h => by cases h
theorem podPgFall (p : Fin 16) : Statement (.podPgFall p) := fun h => by cases h
theorem measureLevelCross (p : Fin 16) (above : Bool) : Statement (.measureLevelCross p above) := fun h => by cases h
theorem carrierLoss (p : Fin 16) : Statement (.carrierLoss p) := fun h => by cases h
theorem darkTimeout (p : Fin 16) (live : PodLive) : Statement (.darkTimeout p live) := fun h => by cases h
theorem phaseLock (p : Fin 16) : Statement (.phaseLock p) := fun h => by cases h
theorem altRelease (p : Fin 16) : Statement (.altRelease p) := fun h => by cases h
theorem podAlarmRaise (p : Fin 16) (bits : BitVec 8) : Statement (.podAlarmRaise p bits) := fun h => by cases h
theorem activeBurst (p : Fin 16) (live : PodLive) : Statement (.activeBurst p live) := fun h => by cases h
theorem burstReceive (p : Fin 16) (burst : BitVec 48) : Statement (.burstReceive p burst) := fun h => by cases h
theorem slEn (p : Fin 16) (by_ : Agent) (on : Bool) : Statement (.slEn p by_ on) := fun h => by cases h
theorem retrain (p : Fin 16) (by_ : Agent) : Statement (.retrain p by_) := fun h => by cases h
theorem chargeTimeout (p : Fin 16) : Statement (.chargeTimeout p) := fun h => by cases h
theorem chargeRetry (p : Fin 16) : Statement (.chargeRetry p) := fun h => by cases h
theorem linkSilence (p : Fin 16) : Statement (.linkSilence p) := fun h => by cases h
theorem podAnswerTimeout (p : Fin 16) : Statement (.podAnswerTimeout p) := fun h => by cases h
theorem budgetWindowStart (p : Fin 16) : Statement (.budgetWindowStart p) := fun h => by cases h
theorem carrierCapCut (p : Fin 16) : Statement (.carrierCapCut p) := fun h => by cases h
theorem slAccRead (p : Fin 16) (by_ : Agent) (addr : BitVec 8) : Statement (.slAccRead p by_ addr) := fun h => by cases h
theorem slAccWrite (p : Fin 16) (by_ : Agent) (addr : BitVec 8) (data : BitVec 16) : Statement (.slAccWrite p by_ addr data) :=
    fun h => by cases h
theorem updatePosition (l : Fin 64) : Statement (.updatePosition l) := fun h => by cases h
theorem driveEdge (l : Fin 64) : Statement (.driveEdge l) := fun h => by cases h
theorem deadTimeElapsed (l : Fin 64) : Statement (.deadTimeElapsed l) := fun h => by cases h
theorem legRelease (l : Fin 64) : Statement (.legRelease l) := fun h => by cases h
theorem comparatorCrossing (c : Fin 64) (v : Int) : Statement (.comparatorCrossing c v) :=
    fun h => by cases h
theorem comparatorSample : Statement .comparatorSample := fun h => by cases h
theorem blankWindowEnd (c : Fin 64) : Statement (.blankWindowEnd c) := fun h => by cases h
theorem dacSettled (c : Fin 64) : Statement (.dacSettled c) := fun h => by cases h
theorem fltAssert (l : Fin 64) : Statement (.fltAssert l) := fun h => by cases h
theorem fltDeassert (l : Fin 64) : Statement (.fltDeassert l) := fun h => by cases h
theorem chokeGroupRelease (g : Fin 16) : Statement (.chokeGroupRelease g) := fun h => by cases h
theorem cgClr (g : Fin 16) (by_ : Agent) : Statement (.cgClr g by_) := fun h => by cases h
theorem cgForce (g : Fin 16) (by_ : Agent) (on : Bool) : Statement (.cgForce g by_ on) := fun h => by cases h
theorem choke (r : Fin 128) : Statement (.choke r) := fun h => by cases h
theorem latch (r : Fin 128) : Statement (.latch r) := fun h => by cases h
theorem post (r : Fin 128) : Statement (.post r) := fun h => by cases h
theorem trigger (r : Fin 128) : Statement (.trigger r) := fun h => by cases h
theorem routeForceLimp (r : Fin 128) : Statement (.routeForceLimp r) := fun h => by cases h
theorem wheelEn (by_ : Agent) (on : Bool) : Statement (.wheelEn by_ on) := fun h => by cases h
theorem wheelCorrection : Statement .wheelCorrection := fun h => by cases h
theorem coastExpire : Statement .coastExpire := fun h => by cases h
theorem limpEdge : Statement .limpEdge := fun h => by cases h
theorem limpLost : Statement .limpLost := fun h => by cases h
theorem wheelBlendStep : Statement .wheelBlendStep := fun h => by cases h
theorem primaryQualified : Statement .primaryQualified := fun h => by cases h
theorem angleArm (k : Fin 40) : Statement (.angleArm k) := fun h => by cases h
theorem angleEventFire (k : Fin 40) : Statement (.angleEventFire k) := fun h => by cases h
theorem evaluationTick : Statement .evaluationTick := fun h => by cases h
theorem pointAsserted (k : Fin 16) : Statement (.pointAsserted k) := fun h => by cases h
theorem measAgeTrip : Statement .measAgeTrip := fun h => by cases h
theorem tapStart : Statement .tapStart := fun h => by cases h
theorem tapPhaseEnd : Statement .tapPhaseEnd := fun h => by cases h
theorem estStarve : Statement .estStarve := fun h => by cases h
theorem estStale : Statement .estStale := fun h => by cases h
theorem mpptStep (k : Fin 8) : Statement (.mpptStep k) := fun h => by cases h
theorem gfEn (by_ : Agent) (on : Bool) : Statement (.gfEn by_ on) := fun h => by cases h
theorem tapNow (by_ : Agent) : Statement (.tapNow by_) := fun h => by cases h
theorem tripClr (by_ : Agent) : Statement (.tripClr by_) := fun h => by cases h
theorem islClr (by_ : Agent) : Statement (.islClr by_) := fun h => by cases h
theorem mpEn (k : Fin 8) (by_ : Agent) (on : Bool) : Statement (.mpEn k by_ on) := fun h => by cases h
theorem frameInstant : Statement .frameInstant := fun h => by cases h
theorem frameClose : Statement .frameClose := fun h => by cases h
theorem mtrEstTimeout (m : Fin 3) : Statement (.mtrEstTimeout m) := fun h => by cases h
theorem mtrEn (by_ : Agent) (on : Bool) : Statement (.mtrEn by_ on) := fun h => by cases h
theorem mtrClr (by_ : Agent) : Statement (.mtrClr by_) := fun h => by cases h
theorem eplsPulseStart : Statement .eplsPulseStart := fun h => by cases h
theorem eplsPulseEnd : Statement .eplsPulseEnd := fun h => by cases h
theorem bkSample (line neutral : Int) (vbatMv : Nat) : Statement (.bkSample line neutral vbatMv) := fun h => by cases h
theorem bkClr (by_ : Agent) : Statement (.bkClr by_) := fun h => by cases h
theorem auxRequestApply : Statement .auxRequestApply := fun h => by cases h
theorem tachEdge (n : Fin 4) (level : Bool) : Statement (.tachEdge n level) := fun h => by cases h
theorem fcsSample (n : Fin 4) (code : BitVec 10) : Statement (.fcsSample n code) := fun h => by cases h
theorem spinTEnd (n : Fin 4) : Statement (.spinTEnd n) := fun h => by cases h
theorem tlossTEnd (n : Fin 4) : Statement (.tlossTEnd n) := fun h => by cases h
theorem pauseTEnd (n : Fin 4) : Statement (.pauseTEnd n) := fun h => by cases h
theorem pullTEnd (n : Fin 8) : Statement (.pullTEnd n) := fun h => by cases h
theorem hsLeadEnd (n : Fin 8) : Statement (.hsLeadEnd n) := fun h => by cases h
theorem coilTurnOff (n : Fin 8) : Statement (.coilTurnOff n) := fun h => by cases h
theorem coilForceOff (n : Fin 8) : Statement (.coilForceOff n) := fun h => by cases h
theorem dschTrigger (k : Fin 2) : Statement (.dschTrigger k) := fun h => by cases h
theorem dschCut : Statement .dschCut := fun h => by cases h
theorem dschCutClear : Statement .dschCutClear := fun h => by cases h
theorem dschFail : Statement .dschFail := fun h => by cases h
theorem dschClr (by_ : Agent) : Statement (.dschClr by_) := fun h => by cases h
theorem supplyHoldEnter (supply : Fin 4) : Statement (.supplyHoldEnter supply) := fun h => by cases h
theorem supplyResume (supply : Fin 4) : Statement (.supplyResume supply) := fun h => by cases h
theorem deviceReset (cause : DeviceResetCause) : Statement (.deviceReset cause) := fun h => by cases h
theorem resetRelease : Statement .resetRelease := fun h => by cases h
theorem bootDone (fuseErr schedFail : Bool) (bistFail : BitVec 8) : Statement (.bootDone fuseErr schedFail bistFail) :=
    fun h => by cases h
theorem backupPowerOn : Statement .backupPowerOn := fun h => by cases h
theorem vbatTest (beforeMv loadMv : Nat) : Statement (.vbatTest beforeMv loadMv) := fun h => by cases h
theorem nrstAssert : Statement .nrstAssert := fun h => by cases h
theorem nrstSecond : Statement .nrstSecond := fun h => by cases h
theorem clkmon (condition : Fin 3) : Statement (.clkmon condition) := fun h => by cases h
theorem watchdogEnable (w : Fin 9) (by_ : Agent) : Statement (.watchdogEnable w by_) := fun h => by cases h
theorem watchdogKey (w : Fin 9) (by_ : Agent) (key : BitVec 32) : Statement (.watchdogKey w by_ key) := fun h => by cases h
theorem watchdogLate (w : Fin 9) : Statement (.watchdogLate w) := fun h => by cases h
theorem dwdResetDelay : Statement .dwdResetDelay := fun h => by cases h
theorem killAssert : Statement .killAssert := fun h => by cases h
theorem safeClr (by_ : Agent) : Statement (.safeClr by_) := fun h => by cases h
theorem spNop (frame : BitVec 32) : Statement (.spNop frame) := fun h => by cases h
theorem spRead (frame : BitVec 32) : Statement (.spRead frame) := fun h => by cases h
theorem spWrite (frame : BitVec 32) : Statement (.spWrite frame) := fun h => by cases h
theorem dataHi (frame : BitVec 32) : Statement (.dataHi frame) := fun h => by cases h
theorem dataLo (frame : BitVec 32) : Statement (.dataLo frame) := fun h => by cases h
theorem kill (frame : BitVec 32) : Statement (.kill frame) := fun h => by cases h
theorem spLock (by_ : Agent) : Statement (.spLock by_) := fun h => by cases h
theorem keyProg (by_ : Agent) (slot : Fin 4) : Statement (.keyProg by_ slot) := fun h => by cases h
theorem keyBurnDone : Statement .keyBurnDone := fun h => by cases h
theorem keyRevoke (by_ : Agent) (slot : Fin 4) : Statement (.keyRevoke by_ slot) := fun h => by cases h
theorem debugOpen (by_ : Agent) (on : Bool) : Statement (.debugOpen by_ on) := fun h => by cases h
theorem debugBlow (by_ : Agent) : Statement (.debugBlow by_) := fun h => by cases h
theorem preloadPoint (e : Fin 8) : Statement (.preloadPoint e) := fun h => by cases h
theorem preload (e : Fin 8) (by_ : Agent) (on : Bool) : Statement (.preload e by_ on) := fun h => by cases h
theorem lockSet (by_ : Agent) (groups : BitVec 10) : Statement (.lockSet by_ groups) := fun h => by cases h
theorem setupRegisterWrite (by_ : Agent) (addr : BitVec 24) (be : BitVec 4) (value : BitVec 32) : Statement (.setupRegisterWrite by_ addr be value) :=
    fun _ => rfl
theorem qualifyCycle (periodPs : Nat) : Statement (.qualifyCycle periodPs) := fun _ => rfl
theorem supplyLevelCross (supply : Fin 4) (level : SupplyLevel) : Statement (.supplyLevelCross supply level) :=
    fun h => by cases h
theorem supplyRestored (supply : Fin 4) : Statement (.supplyRestored supply) := fun h => by cases h
theorem killDeassert : Statement .killDeassert := fun h => by cases h
theorem dbgLockBlown : Statement .dbgLockBlown := fun h => by cases h
theorem fpwmPeriodStart (n : Fin 4) : Statement (.fpwmPeriodStart n) := fun h => by cases h

end Sys2Proof.Laws.Form
end

