-- ==== Sys2Proof/Laws/Time.lean ====
section
/-! SUPPORT. What passing time and serving a request do in their plain cases: time that stands (device reset), an instant that lies
in the past, and a request for which no other waits. -/

namespace Sys2Proof.Laws

open Sys2Proof Sys2Proof.Machine

variable {s : State}

/-- During device reset the timebase stands: only the age counts on (R50). -/
theorem elapse_in_reset (h : s.sup.inReset = true) (n : Nat) : s.elapse n = { s with age := s.age + n } := by
  simp [State.elapse, h]

/-- An age that does not lie ahead has been reached. -/
theorem reachAge_of_le {t : Nat} (h : t ≤ s.age) : s.reachAge t = s := by
  simp [State.reachAge, Nat.not_lt.mpr h]

/-- An age that lies ahead is reached by the fine ticks that remain. -/
theorem reachAge_of_lt {t : Nat} (h : s.age < t) : s.reachAge t = s.elapse (t - s.age) := by
  simp [State.reachAge, h]

/-- An instant of TIME48 that does not lie ahead has been reached. -/
theorem reach_of_le {t : Time} (h : timeLe t s.time = true) : s.reach t = s := by
  simp [State.reach, h]

/-- Where no request waits that goes before it or takes turns with it, a request is served at once, and its function has had its
turn (R145). -/
theorem serve_of_free {f : Fin 9} {rank : Nat} (h : s.linkFree f rank = true) :
    s.serve f rank = { s.request f rank with turn := f } := by
  simp [State.serve, h]

/-- Where another request waits, the turns of the functions decide (R145). -/
theorem serve_of_waiting {f : Fin 9} {rank : Nat} (h : s.linkFree f rank = false) :
    s.serve f rank = (Turns.rounds f rank 10000 ⟨s, Vector.replicate 9 [], false⟩).s := by
  simp [State.serve, h]

end Sys2Proof.Laws
end

