-- ==== Sys2Proof/Tests/Slice0.lean ====
section
/-! SUPPORT. The tests: ill-formed commands, numbers worked in the chapters of the specification, and for every statement with
hypotheses a state and operands that meet them. -/

namespace Sys2Proof.Tests

open Sys2Proof Sys2Proof.Machine

set_option maxRecDepth 100000
set_option linter.unusedVariables false

/-! ## States -/

/-- A schedule image with an entry for easel 0 and no runs. -/
def imageWords : List (BitVec 64) :=
  [0, 0, 0x1000000000000, 0x20, 25000, 0, 0, 0]

/-- Easel 0 has an image that admits it. -/
def wAdmitted : State :=
  { ((State.reset.setFlag R.IMG_STATUS_ACTIVE_VALID true).set (R.DB_PERIOD_PERIOD 0) 25000) with img := { half0 := imageWords } }

/-- Easel 0 runs; its next downbeat lies 500 fine ticks ahead. -/
def wRunning : State :=
  { ((State.reset.setFlag (R.DB_CTRL_RUN 0) true).setFlag R.TB_STATUS_FINE_OK true) with easels := upd State.reset.easels 0 fun z => { z with gen := some 500, dbFired := true, dbCount := 41 } }

/-- Easel 0 closes a final pass with two written words. -/
def wFinal : State :=
  { wRunning with img := { half0 := imageWords }, easels := upd wRunning.easels 0 fun z => { z with pass := some { half := false, limp := false, openDb := 0, openTime := 0, final := some 0 }, shadow := [(0x21005, ⟨7, false⟩), (0x24103, ⟨9, false⟩)] } }

/-- A pass of easel 0 is in progress. -/
def wPass : State :=
  { wRunning with img := { half0 := imageWords }, easels := upd wRunning.easels 0 fun z => { z with pass := some { half := false, limp := false, openDb := 0, openTime := 0 } } }

/-- The pass has one input with TAG 5 and a DEADLINE of 10,000 fine ticks. -/
def wInput : State :=
  { wPass with img := { half0 := [0, 0, 0x1000000000000, 0x20, 25000, 0, 0x10000000000, 0x40, 0x271000000005, 0, 0] } }

/-- An armed shadow image without easels or runs. -/
def wSwap : State :=
  { (State.reset.set R.SWAP_TIME_LO_TIME_LO 5) with img := { half1 := [0x644000011A49534B, 0x100000380, 0, 0x24000000040] ++ List.replicate 108 0, armed := true, len := 896 } }

/-- Tile 0 is about to execute the slot word `w`. -/
def slotState (w : BitVec 64) : State :=
  { tiles := upd State.reset.tiles 0 fun y => { y with run := some { easel := 0, half := false, header := 0, done := 0, dead := false } }
    img := { half0 := [0, 0, 0, 0, 48, 0, BitVec.ofNat 64 (2 ^ 12 * 2 + 2 ^ 24), w] }
    easels := upd State.reset.easels 0 fun z => { z with pass := some { half := false, limp := false, openDb := 0, openTime := 0 } } }

/-- The link is up and easel 0 has its rings and a grant window. -/
def wServed : State :=
  { (((State.reset.setFlag R.LINK_STATUS_DL_ACTIVE true).setFlag (R.RING_CTRL_EN 0) true).set (R.GRANT_LO_LOG2 0) 16) with bme := 0x1FF }

/-- The rings of easel 0 are set up and off. -/
def wRings : State :=
  (((((wServed.setFlag (R.RING_CTRL_EN 0) false).set (R.CMD_BASE_OFF 0) 0).set (R.CPL_BASE_OFF 0) 0x1000).set (R.EVT_BASE_OFF 0) 0x2000).set (R.SMP_BASE_OFF 0) 0x3000).set (R.HCB_OFF_OFF 0) 0x4000

/-- Easel 0 waits for a preload point with the ledger `l`. -/
def wPreload (l : List LEntry) : State :=
  { (wServed.setFlag (R.BRING_CTRL_PRELOAD 0) true) with
    age := 1000
    easels := upd wServed.easels 0 fun z => { z with ledger := l } }

/-- Easel 2 owns two legs and a comparator. -/
def wOwned : State :=
  (((State.reset.set (R.OWN_LEG 5) 10).set (R.OWN_LEG 6) 10).set (R.OWN_CMP 3) 10)

/-- Easel 1 has a region under test, with eight accesses done in each sub-bank. -/
def wTest : State :=
  { (State.reset.setFlag (R.BTEST_STATUS_BUSY 1) true) with easels := upd State.reset.easels 1 fun z => { z with btest := { steps := Vector.replicate 16 8 } } }

/-- Leg 3 belongs to easel 0 and switches. -/
def wLeg : State :=
  ((((State.reset.set (R.LEG_PER_PERIOD 3) 10000).set (R.LEG_STATUS_CAUSE 3) 0).setFlag (R.LEG_STATUS_CHOKED 3) false).set (R.OWN_LEG 3) 8)

/-- Leg 3 is in choke group 2, which its FLT ball and comparator 7 activate. -/
def wGroup : State :=
  ((((wLeg.setBit (R.CG_LO_LEGS_LO 2) 3 true).set (R.LEG_FLT_FLT_GRP 3) 4).set (R.CMP_GRP_GRP_UP 7) 4).setFlag (R.CMP_CFG_ASYNC_UP 7) true)

/-- Choke group 2 is active, in LATCH mode. -/
def wActive : State :=
  ((wGroup.setFlag (R.CG_CTRL_ACTIVE 2) true).setFlag (R.CG_CTRL_GMODE 2) true)

/-- Sequence 0 of pair 1 is armed for the downbeat of easel 0. -/
def wAdc : State :=
  { ((((State.reset.set (R.OWN_ADCP 1) 8).set (R.ADC_PCTRL_SEQ_EN 1) 1).setFlag (R.DB_CTRL_RUN 0) true).set (R.ADC_TOFS_OFFSET 1 0) 7) with easels := upd State.reset.easels 0 fun z => { z with lastDb := some 5 } }

/-- Easel 0 runs and takes every sample of channel 1 of pod 2. -/
def wPodCh : State :=
  (((State.reset.set (R.OWN_PODCH 9) 8).setFlag (R.POD_MRG_EN 9) true).setFlag (R.DB_CTRL_RUN 0) true)

/-- A step of one conversion. -/
def wLand : AdcLand :=
  { seq := 0, step := 0, cfg := 0, first := 0, last := 0, inter := false, ground := false, defer := false, coast := false, low := false }

/-- Converter A of pair 1 has a step to land and a sequence that waits. -/
def wLanding : State :=
  wAdc.modConv 1 0 fun _ => { run := some (⟨0, 0, false, false⟩, 500), pend := [⟨1, 0, false, false⟩], lands := [wLand] }

/-- Pod 3 is charged and locked, with channel 0 on. -/
def wPod : State :=
  State.reset.modPod 3 fun x => { x with pg := true, meas := true, dark := none, locked := true, regs := [(0x10, 1)] }

/-- Pod 3 is charged and dark, with an alarm to send. -/
def wDarkPod : State :=
  State.reset.modPod 3 fun x => { x with pg := true, meas := true, dark := some 0, regs := [(0x02, 2), (0x05, 1), (0x06, 1), (0x10, 1)] }

/-- Link 5 trains with its carrier on. -/
def wLink : State :=
  (((State.reset.set (R.SL_STATUS_STATE 5) slTrain).set (R.SL_STATUS_LEVEL 5) 30).modLink 5 fun x => { x with train := .echo 2 })

/-- Link 5 is up with channel 0. -/
def wUp : State :=
  (((State.reset.set (R.SL_STATUS_STATE 5) slUp).set (R.SL_STATUS_LEVEL 5) 30).set (R.SL_STATUS_CH_UP 5) 1)

/-- An access with SEQ 3 is in progress on link 5. -/
def wAcc : State :=
  wUp.modLink 5 fun x => { x with acc := some (3, 0) }

/-- Link 5 charges its pod. -/
def wCharge : State :=
  ((State.reset.set (R.SL_STATUS_STATE 5) slCharge).set (R.SL_STATUS_LEVEL 5) 7)

/-- The chips of an uplink word (R214). -/
def chips (w : BitVec 32) : BitVec 64 :=
  (List.range 32).foldl (fun x i => x ||| BitVec.ofNat 64 (if w.getLsbD i then 4 ^ i else 2 * 4 ^ i)) 0

/-- The step of string 2 is complete. -/
def wString : State :=
  ((State.reset.setFlag (R.MP_CTRL_EN 2) true).set (R.MP_CTRL_MSTEP_T 2) 4).modString 2 fun x => { x with tick := 4, sumV := 2 ^ 34, sumI := 2 ^ 33 }

/-- A tap may start. -/
def wTap : State :=
  (State.reset.setFlag R.GF_CTRL_EN true |>.setFlag R.GF_CTRL_TAP_EN true |>.set R.WHL_STATUS_STATE whlLocked).modGrid fun g => { g with tapNow := true }

/-- Voltage point 3 is asserted with action TRIP. -/
def wTrip : State :=
  ((State.reset.setFlag R.GF_CTRL_EN true).set (R.RTV_CFG_ACT 3) 3).modGrid fun g => { g with timers := upd g.timers 3 fun _ => 7 }

/-- A frame waits for its close, and the next one is placed. -/
def wFrame : State :=
  (State.reset.setFlag R.MTR_CTRL_EN true).modMtr fun m => { m with next := some (9, false, 0), waiting := [{ at_ := 0, delta := 5, sync := false, target := 0, angle := 0, fresh := false, last := false, span := none }] }

/-- The fans spin up, run, pause and run without tach. -/
def wFans : State :=
  ((((State.reset.set (R.FAN_STATUS_STATE 0) fanSpin).set (R.FAN_STATUS_STATE 1) fanRun).set (R.FAN_STATUS_STATE 2) fanPause).set (R.FAN_STATUS_STATE 3) fanTachless)

/-- Coil 5 is on and due to turn off. -/
def wCoil : State :=
  State.reset.modCoil 5 fun x => { x with req := true, energised := true, due := some 0 }

/-- The discharge is on. -/
def wDsch : State :=
  (State.reset.setFlag R.DSCH_STATUS_ON true)

/-- The device is in supply hold. -/
def wHold : State :=
  ((State.reset.setFlag R.SUP_STATUS_HOLD true).setFlag (R.DB_CTRL_RUN 2) true)

/-- Watchdog 3 is enabled. -/
def wWd : State :=
  (State.reset.setFlag (R.EWD_CTRL_EN 3) true)

/-! ## Well-formedness: each check refuses a term -/

theorem test_wf_capture : Instr.wellFormed (.captureRead .f0 0x1008 0xF) = true := by decide
theorem test_ill_capture : Instr.wellFormed (.captureRead .f0 0x100C 0xF) = false := by decide
theorem test_ill_owner_range : Instr.wellFormed (.ownerWrite .f0 0x3090 1) = false := by decide
theorem test_ill_owner_word : Instr.wellFormed (.ownerWrite .f0 0x3001 1) = false := by decide
theorem test_ill_write_word : Instr.wellFormed (.setupRegisterWrite .f0 0x1002 15 0) = false := by decide
theorem test_ill_write_bytes : Instr.wellFormed (.setupRegisterWrite .f0 0x1000 0 0) = false := by decide
theorem test_ill_drain : Instr.wellFormed (.stagingDrain .f0 .sample) = false := by decide
theorem test_ill_codes : Instr.wellFormed (.adcStepLand 0 0 []) = false := by decide
theorem test_ill_span : Instr.wellFormed (.trefQualified 0 0) = false := by decide
theorem test_ill_cycle : Instr.wellFormed (.qualifyCycle 0) = false := by decide

/-! ## The table of operations gives no row bits -/

theorem test_no_word : decodeTableWord 16 0x1234 = none := rfl
theorem test_fetch_word : State.reset.withFetchWord 0 0 = State.reset := rfl

/-! ## Numbers (worked example of chapter 00) -/

theorem test_reference : roundDiv (10225 * 2 ^ 32) 10000 = 0x0105C28F5C := by decide
theorem test_offset : (BitVec.ofInt 24 (-156250)) = 0xFD9DA6#24 := by decide
theorem test_fill_negative : fill64 0xFFF0000000#40 = 0xFFFFFFFFF0000000#64 := by decide
theorem test_saturate : sat40 (2 ^ 39) = 0x7FFFFFFFFF#40 := by decide

/-! ## Addresses (worked example of chapter 18) -/

theorem test_addr_period : (R.DB_PERIOD_PERIOD 3).addr = 0x830104 := by decide
theorem test_addr_leg : (R.LEG_PER_PERIOD 5).addr = 0x80A4 := by decide
theorem test_addr_force : (R.CG_CTRL_FORCE 5).addr = 0x8C58 := by decide
theorem test_alias_leg : aliasTarget 0x20A4 = some 0x80A4 := by decide
/-- F4 cannot write PERIOD of easel 3, which is SUP; F0 can. -/
theorem test_period_sup : (after (exec (.setupRegisterWrite (.fn 3) 0x830104 15 25000) State.reset) State.reset).get
    (R.DB_PERIOD_PERIOD 3) = State.reset.get (R.DB_PERIOD_PERIOD 3) := by decide
theorem test_period_f0 : (after (exec (.setupRegisterWrite .f0 0x830104 15 25000) State.reset) State.reset).get
    (R.DB_PERIOD_PERIOD 3) = 25000 := by decide
/-- A WRITE frame to word 0x2316 with SEQ 5 carries 0x223165 in bits [31:8]. -/
theorem test_port_frame : portFrame 2 0x2316 5 / 256 = 0x223165#32 := by decide

/-! ## The timebase and the schedule (chapters 02 and 03) -/

theorem test_blend_half : blendWord 0 3000 500 = 1500 := by decide
/-- Easel 0 of the reference budget: HU_PRE 2,020, HU_CHECK 150, HU_REPAINT 1,500, DEADLINE 90,625, PERIOD `p`. -/
def budget (p : Nat) : Half :=
  [BitVec.ofNat 64 (p + 2020 * 2 ^ 32), BitVec.ofNat 64 (150 + 1500 * 2 ^ 32), 0x10000000000, 0x28, 0,
    BitVec.ofNat 64 (90625 * 2 ^ 32)]
theorem test_admitted : (budget 125000).fits 0 worstTempo = true := by decide
/-- It has 43.25 ns to spare, so a period shorter by 43 ns is admitted and one shorter by 44 ns is not. -/
theorem test_admitted_margin : ((budget 124463).fits 0 worstTempo, (budget 124450).fits 0 worstTempo) = (true, false) := by decide
theorem test_live_tempo : liveTempo (List.replicate 63 0 ++ [4301]) 0x40 = some 5377 := by decide
theorem test_live_short : liveTempo [4301] 0x40 = none := by decide

/-! ## Slots (worked example of chapter 04) -/

/-- Tile 0 runs one slot word for easel 1, whose memory holds the words of the example. -/
def loop (w : BitVec 64) : State :=
  let s := slotState w
  let s := { s with
    tiles := upd s.tiles 0 fun y => { y with run := y.run.map fun r => { r with easel := 1 } }
    img := { half0 := [0, 0, 0, 0, 48, 0, BitVec.ofNat 64 (2 ^ 8 + 2 ^ 12 * 2 + 2 ^ 24), w] }
    easels := upd s.easels 1 fun z => { z with pass := some { half := false, limp := false, openDb := 0, openTime := 0 } } }
  [(0x00010, 0x0080000000#40), (0x00011, 0x0010000000), (0x00012, 0), (0x00013, 0x0080000000), (0x20000, 0x0040000000),
    (0x20001, 0x00C0000000), (0x22000, 0x0010000000), (0x22003, 0x0001000000), (0x24000, 0x00B0000000)].foldl
    (fun s x => s.writeMem 1 x.1 ⟨x.2, false⟩) s

/-- A slot word from opcode, destination and sources. -/
def slotWord (op dst a b : Nat) : BitVec 64 := BitVec.ofNat 64 (op + dst * 2 ^ 8 + a * 2 ^ 26 + b * 2 ^ 44)

theorem test_slot_fields : slotOf (slotWord 4 0x22000 0x20001 0x24000).toNat = ⟨4, 0x22000, 0x20001, 0x24000, 0⟩ := by decide
/-- e = 0.75 − 0.6875 = 0.0625. -/
theorem test_sub : ((after (exec (.sub 0) (loop (slotWord 0x04 0x22000 0x20001 0x24000))) State.reset).readOp 1 0x22000).1
    = ⟨0x0010000000, false⟩ := by decide
/-- Kp × e = 0.03125. -/
theorem test_muls32 : ((after (exec (.muls32 0) (loop (slotWord 0x24 0x22001 0x00010 0x22000))) State.reset).readOp 1 0x22001).1
    = ⟨0x0008000000, false⟩ := by decide
/-- I = 0.25 + 0.00390625 within its bounds, written to the shadow view. -/
theorem test_integ : ((after (exec (.integ 0) (loop (slotWord 0x28 0x21000 0x22003 0x00012))) State.reset).readOp 1 0x21000).1
    = ⟨0x0041000000, false⟩ := by decide +kernel
theorem test_integ_frame : ((after (exec (.integ 0) (loop (slotWord 0x28 0x21000 0x22003 0x00012))) State.reset).readOp 1
    0x20000).1 = ⟨0x0040000000, false⟩ := by decide

/-! ## Memory (chapter 05) -/

theorem test_vacant : encodeWord 0 true = vacantPhys := by decide
theorem test_reads_vacant : (State.reset.readMem 0 0x6910).1 = ⟨vacantWord, true⟩ := by decide
theorem test_march_ends : (testAccess 23, testAccess 24, testAccess 43, testAccess 47)
    = (.marchWrite 3, .marchRead 3, .marchRead 3, .restore 3) := by decide

/-! ## Descriptors and completions (worked example of chapter 07) -/

/-- Slot 40: STATE_WR of the reference, TAG 0x42, the first of two. -/
def slot40 : Entry := #v[0x00421002, 0, 0x00100010, 0x0000000105C28F5C, 0, 0, 0, 0]
/-- Slot 41: BANK_WR of two words. -/
def slot41 : Entry := #v[0x00421103, 0, 0x00200200, 0x80000000, 0xFFFFFFFFF0000000, 0, 0, 0]
theorem test_slot40 : (slot40.op, slot40.gpos, slot40.glenM1, slot40.tag, slot40.count, slot40.address, slot40.malformed)
    = (2, 0, 1, 0x42, 1, 0x10, false) := by decide
theorem test_slot41 : (slot41.op, slot41.gpos, slot41.glenM1, slot41.tag, slot41.count, slot41.address, slot41.malformed)
    = (3, 1, 1, 0x42, 2, 0x200, false) := by decide
theorem test_completion : (completionWords [⟨slot40, .committed, false, true, false, 40, 0, 0, 1000000, .none, [], 0x1A94A200, allClean⟩]).take 3
    = [0x0000000100420201, 0x00280000000F4240, 0x1A94A20000000000] := by decide

/-! ## Conversion (worked example of chapter 09) -/

/-- r = 10,240 with OFS 12 and GAIN 0x4052 is 41,153. -/
theorem test_calibrated : calibrated 12 0x4052 10240 = 0xA0C1 := by decide
theorem test_step_tag : stepTag 1 ⟨0, 0, 0, 0, 0, false, false, false, false, false⟩ = 0x0800 := by decide

/-! ## Legs (worked example of chapter 11) -/

theorem test_duty_30 : dutyLen 125000 0 0x004CCCCCCD = 37500 := by decide
theorem test_duty_40 : dutyLen 125000 0 0x0066666666 = 50000 := by decide
/-- The high interval of TRI is 37,500 ≤ τ < 87,500. -/
theorem test_interval : (((State.reset.set (R.LEG_PER_PERIOD 0) 125000).setFlag (R.LEG_CFG_CMODE 0) true).interval 0
    0x0066666666) = (37500, 50000) := by decide

/-! ## The wheel and the grid (worked examples of chapters 12 and 13) -/

/-- θ_ref = 0x4021_187F for A₀ = 0x4000_0000, FREQ 549,756, DB_PERIOD 125,000 and LEAD 1,250. -/
theorem test_theta_ref : ((((State.reset.set R.WHL_FREQ_FREQ 549756).set (R.DB_PERIOD_PERIOD 0) 125000).set (R.REF_CTRL_LEAD 0)
    1250).modWheel fun w => { w with acc := 0x4000000000 }).thetaRef 0 = 0x4021187F := by decide

/-! ## Metering (worked example of chapter 14) -/

theorem test_interpolation : 1312500 + roundDiv ((1312500 - 1000000) * (-292500)) 312500 = 1020000 := by decide
/-- A block of 2,760,000,000,000 × 2³⁶ credits 61 mWh and leaves 15,000,000,000 × 2³⁶. -/
theorem test_energy : ((State.reset.credit 0 (2760000000000 * 2 ^ 36)).macc 0,
    (State.reset.credit 0 (2760000000000 * 2 ^ 36)).mtr.residue[0]) = (61, 15000000000 * 2 ^ 36) := by decide
/-- Three such blocks: 184 mWh. -/
theorem test_energy_thrice : (((State.reset.credit 0 (2760000000000 * 2 ^ 36)).credit 0 (2760000000000 * 2 ^ 36)).credit 0
    (2760000000000 * 2 ^ 36)).macc 0 = 184 := by decide
theorem test_gain : roundDiv (420000 * 2 ^ 30) 418440 = 1077744876 := by decide

/-! ## Coils (worked example of chapter 15) -/

/-- CLAMP_CAP 15,000 µJ, FB_E 12,000 and 8,000 µJ; the meter holds `m` in units of 1/100,000 µJ. -/
def clamp (m : Nat) : State :=
  let s := ((State.reset.set (R.CLMP_CAP_CLAMP_CAP 0) 15000).set (R.COIL_FB_FB_E 0) 12000).set (R.COIL_FB_FB_E 1) 8000
  { s with aux := { s.aux with clamp := upd s.aux.clamp 0 fun _ => m } }
theorem test_clamp_first : (clamp 0).clampRoom 0 = true := by decide
theorem test_clamp_second : (clamp (12000 * microJ)).clampRoom 1 = false := by decide
theorem test_clamp_later : (clamp (7000 * microJ)).clampRoom 1 = true := by decide

/-! ## A watchdog at its edges (worked example of chapter 16) -/

/-- OPEN 800, CLOSE 1,200, T = `t`. -/
def dog (t : Nat) : State :=
  (((State.reset.setFlag (R.EWD_CTRL_EN 0) true).set (R.EWD_OPEN_OPEN 0) 800).set (R.EWD_CLOSE_CLOSE 0) 1200).set
    (R.EWD_STATUS_T 0) t
theorem test_early : (after (exec (.watchdogKey 0 (.fn 0) 0x6B3D94C2) (dog 799)) State.reset).get (R.EWD_CTRL_LAST 0) = 1 := by
  decide
theorem test_valid_first : (after (exec (.watchdogKey 0 (.fn 0) 0x6B3D94C2) (dog 800)) State.reset).get (R.EWD_CTRL_LAST 0) = 0 := by
  decide
theorem test_valid_last : (after (exec (.watchdogKey 0 (.fn 0) 0x6B3D94C2) (dog 1199)) State.reset).get (R.EWD_STATUS_T 0) = 0 := by
  decide
theorem test_late : (after (exec (.watchdogKey 0 (.fn 0) 0x6B3D94C2) (dog 1200)) State.reset).get (R.EWD_CTRL_LAST 0) = 3 := by
  decide

/-! ## The queue -/

theorem test_step_front : (after (step { pending := [.nop 0, .nop 1] }) State.reset).pending = [.nop 1] := by decide
theorem test_step_idle : (after (step State.reset) State.reset).age = 1 := by decide

/-! ## Every statement with hypotheses has states and operands that meet them -/

theorem met_StepRunsTheFrontCommand : ∃ (s : State) (c : Instr) (rest : List Instr), s.pending = c :: rest :=
  ⟨{ pending := [.nop 0, .nop 1] }, .nop 0, [.nop 1], rfl⟩

theorem met_IdleStepPassesOneFineTick_1 : ∃ s : State, s.pending = [] ∧ s.sup.inReset = true :=
  ⟨{ sup := { inReset := true } }, by decide⟩

theorem met_IdleStepPassesOneFineTick_2 : ∃ s : State, s.pending = [] ∧ s.sup.inReset = false :=
  ⟨State.reset, by decide⟩

theorem met_PinsStayExclusive : ∃ s t : State, s.PinsExclusive ∧ step s = .next t :=
  ⟨{ pending := [.nop 0] }, State.reset, by decide, rfl⟩

theorem met_ChokedLegsStayLow : ∃ s t : State, s.ChokedLow ∧ step s = .next t :=
  ⟨{ pending := [.nop 0] }, State.reset, by decide, rfl⟩

theorem met_RegistersStayInOrder : ∃ s t : State, s.RegsInOrder ∧ step s = .next t :=
  ⟨{ pending := [.nop 0] }, State.reset, by decide, rfl⟩

theorem met_MemoryStaysCanonical : ∃ s t : State, s.MemCanonical ∧ step s = .next t :=
  ⟨{ pending := [.nop 0] }, State.reset, by decide, rfl⟩

theorem met_SingleBitErrorsAreCorrected : ∃ (d : Word) (vac : Bool) (i : Nat), i < 48 :=
  ⟨5, true, 47, by decide⟩

theorem met_DoubleBitErrorsAreFound : ∃ (d : Word) (vac : Bool) (i j : Nat), i < j ∧ j < 48 :=
  ⟨5, false, 46, 47, by decide⟩

theorem met_MemoryReadsWhatWasWritten_1 : ∃ (s : State) (e : Fin 8) (a : Nat) (w : TWord), ∃ b : Nat, b ≠ a :=
  ⟨State.reset, 0, 0x10, ⟨1, false⟩, 0x11, by decide⟩

theorem met_MemoryReadsWhatWasWritten_2 : ∃ (s : State) (e : Fin 8) (a : Nat) (w : TWord), ∃ (f : Fin 8) (b : Nat), f ≠ e :=
  ⟨State.reset, 0, 0x10, ⟨1, false⟩, 1, 0x10, by decide⟩

theorem met_MemoryReadsWhatWasWritten_3 : ∃ (s : State) (e : Fin 8) (a : Nat) (w : TWord), (s.ez e).MemCanonical :=
  ⟨State.reset, 0, 0x10, ⟨1, false⟩, by decide⟩

theorem met_TempoIsPublishedEachWindow_1 : ∃ (s u : State) (trips : Vector Nat 16), u = s.reachAge (s.tb.windowFrom + 32000)
    ∧ s.sup.inReset = false ∧ (∀ i : Fin 16, trips[i] ≠ 0) :=
  ⟨State.reset, _, Vector.replicate 16 1, rfl, by decide⟩

theorem met_TempoIsPublishedEachWindow_2 : ∃ (s u : State) (trips : Vector Nat 16), ∃ (r : Fin 16), u = s.reachAge
    (s.tb.windowFrom + 32000) ∧ s.sup.inReset = false ∧ trips[r] = 0 ∧ (∀ i : Fin 16, i < r → trips[i] ≠ 0) :=
  ⟨State.reset, _, upd (Vector.replicate 16 5) 3 fun _ => 0, 3, rfl, by decide⟩

theorem met_CalibrationTakesOrKeepsTheTable_1 : ∃ (s u : State) (n : BitVec 9), u = s.reachAge (s.tb.calFrom + 128000) ∧
    s.sup.inReset = false ∧ 125 ≤ n.toNat ∧ n.toNat ≤ 320 :=
  ⟨State.reset, _, 125, rfl, by decide⟩

theorem met_CalibrationTakesOrKeepsTheTable_2 : ∃ (s u : State) (n : BitVec 9), u = s.reachAge (s.tb.calFrom + 128000) ∧
    s.sup.inReset = false ∧ (n.toNat < 125 ∨ 320 < n.toNat) :=
  ⟨State.reset, _, 124, rfl, by decide⟩

theorem met_ReferenceChangesFollowTheTable_1 : ∃ (s : State), ∃ (word : Int), s.sup.inReset = false ∧ s.get
    R.TB_STATUS_STATE = 0 ∧ s.tb.trimAt = none :=
  ⟨State.reset.set R.TB_STATUS_STATE 0, 7, by decide⟩

theorem met_ReferenceChangesFollowTheTable_2 : ∃ (s : State), ∃ (word : Int) (a : Nat) (u : State), u = s.reachAge (a +
    12500000) ∧ s.sup.inReset = false ∧ s.get R.TB_STATUS_STATE = 0 ∧ s.tb.trimAt = some a :=
  ⟨(State.reset.set R.TB_STATUS_STATE 0).modTb fun b => { b with trimAt := some 5 }, 7, 5, _, rfl, by decide⟩

theorem met_ReferenceChangesFollowTheTable_3 : ∃ (s : State), ∃ (x : TrefView), s.sup.inReset = false ∧ s.get
    R.TB_STATUS_STATE = 0 ∧ ((∃ n, x = .gap n ∧ 2500 ≤ n) ∨ (∃ n, x = .window n ∧ 4096 * 2 < ((n : Int) - 4096).natAbs *
    100)) :=
  ⟨State.reset.set R.TB_STATUS_STATE 0, .gap 2500, by decide, by decide, Or.inl ⟨2500, rfl, by decide⟩⟩

theorem met_ReferenceChangesFollowTheTable_4 : ∃ (s : State), ∃ (n : Nat), s.sup.inReset = false ∧ n < 2500 :=
  ⟨State.reset, 2499, by decide⟩

theorem met_ReferenceChangesFollowTheTable_5 : ∃ (s : State), ∃ (n : Nat), s.sup.inReset = false ∧ ((n : Int) - 4096).natAbs
    * 100 ≤ 4096 * 2 :=
  ⟨State.reset, 4177, by decide⟩

theorem met_ReferenceChangesFollowTheTable_6 : ∃ (s : State), ∃ (u : State), u = s.reachAge (s.tb.blendAt + 1250 *
    (s.tb.blendStep + 1)) ∧ s.sup.inReset = false ∧ (s.get R.TB_STATUS_STATE = 1 ∨ s.get R.TB_STATUS_STATE = 4) ∧
    s.tb.blendStep < 1000 :=
  ⟨State.reset.set R.TB_STATUS_STATE 1, _, rfl, by decide⟩

theorem met_ReferenceChangesFollowTheTable_7 : ∃ (s : State), ∃ (u : State), u = s.reachAge (s.tb.blendAt + 1250000) ∧
    s.sup.inReset = false ∧ (s.get R.TB_STATUS_STATE = 1 ∨ s.get R.TB_STATUS_STATE = 4) :=
  ⟨State.reset.set R.TB_STATUS_STATE 4, _, rfl, by decide⟩

theorem met_ReferenceChangesFollowTheTable_8 : ∃ (s : State), s.sup.inReset = false ∧ s.get R.TB_STATUS_STATE = 2 ∧ s.flag
    R.TB_CTRL_TREF_EN = true ∧ s.flag R.TB_CTRL_FORCE_BOSC = false :=
  ⟨State.reset, by decide⟩

theorem met_ReferenceChangesFollowTheTable_9 : ∃ (s : State), ∃ (periodPs : Nat), s.sup.inReset = false ∧ s.get
    R.TB_STATUS_STATE = 3 :=
  ⟨State.reset.set R.TB_STATUS_STATE 3, 40000, by decide⟩

theorem met_ReferenceChangesFollowTheTable_10 : ∃ (s : State), ∃ (span : Nat) (word : Int), s.sup.inReset = false ∧ s.get
    R.TB_STATUS_STATE = 3 ∧ s.get R.TB_STATUS_QUAL_COUNT = 1024 ∧ s.flag R.TB_CTRL_TREF_EN = true ∧ s.flag
    R.TB_CTRL_FORCE_BOSC = false ∧ 4035 ≤ span ∧ span ≤ 4157 :=
  ⟨(State.reset.set R.TB_STATUS_STATE 3).set R.TB_STATUS_QUAL_COUNT 1024, 4035, 5, by decide⟩

theorem met_ReferenceChangesFollowTheTable_11 : ∃ (s : State), ∃ (span : Nat) (word : Int), s.sup.inReset = false ∧ s.get
    R.TB_STATUS_STATE = 3 ∧ s.get R.TB_STATUS_QUAL_COUNT = 1024 ∧ (span < 4035 ∨ 4157 < span) :=
  ⟨(State.reset.set R.TB_STATUS_STATE 3).set R.TB_STATUS_QUAL_COUNT 1024, 4034, 5, by decide⟩

theorem met_ReferenceControlsActByState_1 : ∃ (s : State) (a : Agent) (on : Bool), s.mayWrite a 0 = true :=
  ⟨State.reset, .sp, true, by decide⟩

theorem met_ReferenceControlsActByState_2 : ∃ (s : State) (a : Agent) (on : Bool), s.mayWrite a 0 = true :=
  ⟨State.reset, .sp, true, by decide⟩

theorem met_ReferenceControlsActByState_3 : ∃ (s : State) (a : Agent) (on : Bool), s.mayWrite a 0 = true :=
  ⟨State.reset, .sp, true, by decide⟩

theorem met_ReferenceControlsActByState_4 : ∃ (s : State), s.sup.inReset = false ∧ s.pending = [] ∧ s.fine = 124 ∧ s.flag
    R.TB_CTRL_TREF_EN = true ∧ s.flag R.TB_CTRL_FORCE_BOSC = false :=
  ⟨{ State.reset with fine := 124 }, by decide⟩

theorem met_ReferenceControlsActByState_5 : ∃ (s : State), s.sup.inReset = false ∧ s.pending = [] ∧ s.fine = 124 ∧ (s.flag
    R.TB_CTRL_TREF_EN = false ∨ s.flag R.TB_CTRL_FORCE_BOSC = true) :=
  ⟨{ (State.reset.setFlag R.TB_CTRL_FORCE_BOSC true) with fine := 124 }, by decide⟩

theorem met_DownbeatsAreNumberedFromReset_1 : ∃ (s : State) (e : Fin 8) (tm : Time), s.dbPoint e = some tm ∧ (s.reach
    tm).dbMoves e = false :=
  ⟨wRunning, 0, 500, by decide⟩

theorem met_DownbeatsAreNumberedFromReset_2 : ∃ (s : State), ∃ (c : DeviceResetCause), (c = .supply → s.sup.inReset = false
    ∧ ∃ k : Fin 4, s.sup.supplies[k] = .belowReset) ∧ (c = .dwd → s.sup.dwdReset.isSome = true) :=
  ⟨{ State.reset with sup := { State.reset.sup with dwdReset := some 5 } }, .dwd, by decide⟩

theorem met_DownbeatsAreNumberedFromReset_3 : ∃ (s : State), ∃ (e : Fin 8), (s.ez e).reset.isSome = true :=
  ⟨{ easels := upd State.reset.easels 2 fun z => { z with reset := some .watchdog } }, 2, by decide⟩

theorem met_DownbeatClosesAndReleasesPasses_1 : ∃ (s : State) (e : Fin 8) (tm : Time), s.dbPoint e = some tm ∧ (s.reach
    tm).dbMoves e = false ∧ ((s.reach tm).ez e).genLast = none :=
  ⟨wRunning, 0, 500, by decide⟩

theorem met_DownbeatClosesAndReleasesPasses_2 : ∃ (s : State) (e : Fin 8) (tm : Time), s.dbPoint e = some tm ∧ (s.reach
    tm).dbMoves e = false ∧ ((s.reach tm).ez e).genLast.isSome = true :=
  ⟨{ (wRunning) with easels := upd State.reset.easels 0 fun z => { z with genLast := some 500 } }, 0, 500, by decide⟩

theorem met_DownbeatClosesAndReleasesPasses_3 : ∃ (s : State) (e : Fin 8) (tm : Time) (p : Pass), s.dbPoint e = some tm ∧
    (s.reach tm).dbMoves e = false ∧ ((s.reach tm).ez e).pass = some p ∧ p.slipped = true ∧ p.fault = none ∧ (((s.reach
    tm).ez e).shadow.all fun x => !x.2.taint) = true ∧ (s.reach tm).flag (R.ENG_STATUS_PHOLD e) = false ∧ (s.reach
    tm).heldAt e = false ∧ ((∀ d : Fin 8, (s.ez d).unpred = false)) ∧ s.unpredRegs = [] :=
  ⟨{ (wRunning) with easels := upd (wRunning).easels 0 fun z => { z with pass := some { half := false, limp := false, openDb := 0, openTime := 0, slipped := true } } }, 0, 500, { half := false, limp := false, openDb := 0, openTime := 0, slipped := true }, by decide⟩

theorem met_FinalPassesBecomeReal_1 : ∃ (s : State) (e : Fin 8) (tm : Time) (p : Pass), s.dbPoint e = some tm ∧ (s.reach
    tm).dbMoves e = false ∧ ((s.reach tm).ez e).pass = some p ∧ (s.reach tm).finalInTime e p = true ∧ p.fault = none ∧
    (((s.reach tm).ez e).shadow.all fun x => !x.2.taint) = true ∧ (s.reach tm).flag (R.ENG_STATUS_PHOLD e) = false ∧
    (s.reach tm).heldAt e = false ∧ (s.reach tm).inHrd e = false ∧ ((s.reach tm).ez e).limpAt = none ∧ ((s.reach tm).ez
    e).hrdAt = none :=
  ⟨wFinal, 0, 500, { half := false, limp := false, openDb := 0, openTime := 0, final := some 0 }, by decide⟩

theorem met_FinalPassesBecomeReal_2 : ∃ (s : State) (e : Fin 8) (tm : Time) (p : Pass), ∃ (l : Fin 64) (w : Word), s.dbPoint
    e = some tm ∧ (s.reach tm).dbMoves e = false ∧ ((s.reach tm).ez e).pass = some p ∧ (s.reach tm).finalInTime e p = true ∧
    p.fault = none ∧ (((s.reach tm).ez e).shadow.all fun x => !x.2.taint) = true ∧ (s.reach tm).flag (R.ENG_STATUS_PHOLD e)
    = false ∧ (s.reach tm).heldAt e = false ∧ (s.reach tm).inHrd e = false ∧ ((s.reach tm).ez e).limpAt = none ∧ ((s.reach
    tm).ez e).hrdAt = none ∧ (s.reach tm).ownerLeg l = some e ∧ ((((s.reach tm).ez e).shadow.filter fun x => x.1 == dutyBase
    + l.val).map fun x => x.2.val) = [w] :=
  ⟨wFinal.set (R.OWN_LEG 3) 8, 0, 500, { half := false, limp := false, openDb := 0, openTime := 0, final := some 0 }, 3, 9, by decide⟩

theorem met_FinalPassesBecomeReal_3 : ∃ (s : State) (e : Fin 8) (tm : Time) (p : Pass) (a : Nat) (w : Word), s.dbPoint e =
    some tm ∧ (s.reach tm).dbMoves e = false ∧ ((s.reach tm).ez e).pass = some p ∧ (s.reach tm).finalInTime e p = true ∧
    p.fault = none ∧ (((s.reach tm).ez e).shadow.all fun x => !x.2.taint) = true ∧ (s.reach tm).flag (R.ENG_STATUS_PHOLD e)
    = false ∧ (s.reach tm).heldAt e = false ∧ (s.reach tm).inHrd e = false ∧ ((s.reach tm).ez e).limpAt = none ∧ ((s.reach
    tm).ez e).hrdAt = none ∧ shadowBase ≤ a ∧ a < scratchBase ∧ ((s.reach tm).ez e).ledger = [] ∧ ((((s.reach tm).ez
    e).shadow.filter fun x => x.1 == a).map fun x => x.2.val) = [w] :=
  ⟨wFinal, 0, 500, { half := false, limp := false, openDb := 0, openTime := 0, final := some 0 }, 0x21005, 7, by decide⟩

theorem met_FirstDownbeatIsTheEarliestCandidate : ∃ (_ _ : Time) (p : Nat), 0 < p :=
  ⟨0, 0, 25000, by decide⟩

theorem met_RunWritesStartAndStopTheGenerator_1 : ∃ (s : State) (e : Fin 8) (a : Agent), s.reachesWindow a e = true ∧
    s.runBlocked e = false ∧ (s.admission e (s.halfOf e)).1 = true ∧ s.hasImage e = true :=
  ⟨wAdmitted, 0, .f0, by decide⟩

theorem met_RunWritesStartAndStopTheGenerator_2 : ∃ (s : State) (e : Fin 8) (a : Agent), s.reachesWindow a e = true ∧
    s.runBlocked e = false ∧ (((s.admission e (s.halfOf e)).1 = false ∨ s.hasImage e = false)) :=
  ⟨State.reset, 0, .fn 0, by decide⟩

theorem met_RunWritesStartAndStopTheGenerator_3 : ∃ (s : State) (e : Fin 8) (a : Agent) (g : Time), s.reachesWindow a e =
    true ∧ s.run e = true ∧ (s.ez e).gen = some g ∧ atLeastAfter ns40 s.time g = false :=
  ⟨{ wRunning with time := 1 }, 0, .f0, 500, by decide⟩

theorem met_RunWritesStartAndStopTheGenerator_4 : ∃ (s : State) (e : Fin 8) (a : Agent) (g : Time), s.reachesWindow a e =
    true ∧ s.run e = true ∧ (s.ez e).gen = some g ∧ atLeastAfter ns40 s.time g = true ∧ (s.ez e).genLast = none :=
  ⟨wRunning, 0, .f0, 500, by decide⟩

theorem met_PeriodAndStartAreFrozenWhileRunning_1 : ∃ (s : State) (e : Fin 8) (a : Agent), ∃ (v : BitVec 32),
    s.reachesWindow a e = true ∧ s.run e = false ∧ s.overruled a (R.DB_PERIOD_PERIOD e).addr = 0 ∧ (∀ c ∈ s.tick.counts, c.1
    ≠ (R.DB_PERIOD_PERIOD e).addr) ∧ (∀ (p : Fin 8) (q : Fin 4), s.pairOwner p = some e → s.get (R.ADC_SEQ_SRC p q) = 0 →
    s.get (R.ADC_TOFS_OFFSET p q) < v.toNat) ∧ a = .f0 ∧ 6250 ≤ v.toNat ∧ v.toNat ≤ 12500000 :=
  ⟨State.reset, 0, .f0, 6250, by decide⟩

theorem met_PeriodAndStartAreFrozenWhileRunning_2 : ∃ (s : State) (e : Fin 8) (a : Agent) (v : BitVec 32), s.run e = true :=
  ⟨wRunning, 0, .f0, 77, by decide⟩

theorem met_PeriodAndStartAreFrozenWhileRunning_3 : ∃ (s : State) (e : Fin 8) (a : Agent), ∃ (v : BitVec 32),
    s.reachesWindow a e = true ∧ s.run e = false ∧ s.overruled a (R.DB_START_LO_START_LO e).addr = 0 ∧ (∀ c ∈ s.tick.counts,
    c.1 ≠ (R.DB_START_LO_START_LO e).addr) :=
  ⟨State.reset, 3, .fn 3, 5, by decide⟩

theorem met_PeriodAndStartAreFrozenWhileRunning_4 : ∃ (s : State) (e : Fin 8) (a : Agent) (v : BitVec 32), s.run e = true :=
  ⟨wRunning, 0, .f0, 77, by decide⟩

theorem met_PeriodAndStartAreFrozenWhileRunning_5 : ∃ (s : State) (e : Fin 8) (a : Agent), ∃ (v : BitVec 32),
    s.reachesWindow a e = true ∧ s.run e = false ∧ s.overruled a (R.DB_START_HI_START_HI e).addr = 0 ∧ (∀ c ∈ s.tick.counts,
    c.1 ≠ (R.DB_START_HI_START_HI e).addr) ∧ v.toNat < 65536 :=
  ⟨State.reset, 3, .fn 3, 65535, by decide⟩

theorem met_PeriodAndStartAreFrozenWhileRunning_6 : ∃ (s : State) (e : Fin 8) (a : Agent) (v : BitVec 32), s.run e = true :=
  ⟨wRunning, 0, .f0, 77, by decide⟩

theorem met_PeriodAndStartAreFrozenWhileRunning_7 : ∃ (s : State) (e : Fin 8) (a : Agent) (c : ResetCause), s.resetAllowed c
    = true ∧ (s.ez e).reset = none :=
  ⟨wRunning, 0, .f0, .erstCtrl, by decide⟩

theorem met_CapturesHoldTheTime_1 : ∃ (s : State) (a : Agent), s.sup.inReset = false ∧ a.global = true :=
  ⟨State.reset, .sp, by decide⟩

theorem met_CapturesHoldTheTime_2 : ∃ (s : State) (a : Agent) (e : Fin 8), s.sup.inReset = false ∧ a.window e = true :=
  ⟨State.reset, .fn 7, 7, by decide⟩

theorem met_LatePassesSlip_1 : ∃ (s : State) (e : Fin 8) (p : Pass) (i : Fin 64), (s.ez e).pass = some p ∧ i.val <
    (s.passHalf p).nInputs (s.passEntry e p) :=
  ⟨wInput, 0, { half := false, limp := false, openDb := 0, openTime := 0 }, 0, by decide⟩

theorem met_LatePassesSlip_2 : ∃ (s : State) (e : Fin 8) (p : Pass), (s.ez e).pass = some p :=
  ⟨wPass, 0, { half := false, limp := false, openDb := 0, openTime := 0 }, by decide⟩

theorem met_RequestsWaitForTheirDownbeat_1 : ∃ (s : State) (e : Fin 8) (a : Agent), s.reachesWindow a e = true ∧ s.limp e =
    0 :=
  ⟨State.reset, 0, .f0, by decide⟩

theorem met_RequestsWaitForTheirDownbeat_2 : ∃ (s : State) (e : Fin 8) (a : Agent), s.reachesWindow a e = true ∧ s.inHrd e =
    false :=
  ⟨State.reset, 2, .fn 2, by decide⟩

theorem met_RequestsWaitForTheirDownbeat_3 : ∃ (s : State) (e : Fin 8) (a : Agent), s.reachesWindow a e = true ∧ s.flag
    (R.ENG_STATUS_PHOLD e) = true :=
  ⟨(State.reset.setFlag (R.ENG_STATUS_PHOLD 1) true), 1, .fn 1, by decide⟩

theorem met_TheCheckComparesEveryInput_1 : ∃ (s : State) (e : Fin 8), (s.ez e).pass = none :=
  ⟨State.reset, 0, by decide⟩

theorem met_TheCheckComparesEveryInput_2 : ∃ (s : State) (e : Fin 8), ∃ (p : Pass), (s.ez e).pass = some p ∧ s.checkReady e
    p = false :=
  ⟨wInput, 0, { half := false, limp := false, openDb := 0, openTime := 0 }, by decide⟩

theorem met_TheCheckComparesEveryInput_3 : ∃ (s : State) (e : Fin 8), ∃ (p : Pass), ∃ (n : Nat), n = (s.passHalf p).nInputs
    (s.passEntry e p) ∧ (s.ez e).pass = some p ∧ s.checkReady e p = true ∧ n ≤ 64 :=
  ⟨wPass, 0, { half := false, limp := false, openDb := 0, openTime := 0 }, _, rfl, by decide⟩

theorem met_AnIdleTileStartsTheFirstReadyRun : ∃ (s : State) (x : Fin 16) (e : Fin 8) (i : Nat), s.tiles[x].run = none ∧
    s.nextRun x = some (e, i) :=
  ⟨{ wPass with img := { half0 := [0, 0, 0x1000100000000, 0x1000000020, 25000, 0, 0, 0, 0, 0, 0x100000000, 0, 0, 0, 0, 0, 0, 0, 0, 0] } }, 0, 0, 0, by decide⟩

theorem met_ImagesLoadIntoTheShadowHalf_1 : ∃ (s : State) (a : Agent), s.reaches a = true ∧ s.loadAllowed = true ∧ s.flag
    R.IMG_STATUS_BUSY = false ∧ s.swapPending = false :=
  ⟨State.reset, .f0, by decide⟩

theorem met_ImagesLoadIntoTheShadowHalf_2 : ∃ (s : State), s.img.stage = .dma :=
  ⟨{ img := { stage := .dma, len := 8 } }, by decide⟩

theorem met_ImagesLoadIntoTheShadowHalf_3 : ∃ (s : State), s.img.stage = .dma :=
  ⟨{ img := { stage := .dma, len := 8 } }, by decide⟩

theorem met_ImagesLoadIntoTheShadowHalf_4 : ∃ (s : State), s.img.stage = .verify :=
  ⟨{ img := { stage := .verify, len := 8 } }, by decide⟩

theorem met_SwapsWaitForTheirTime_1 : ∃ (s : State) (a : Agent), s.reaches a = true ∧ s.img.armed = true ∧ s.swapPending =
    false ∧ s.swapError = false ∧ timeLe s.swapTime s.time = false :=
  ⟨wSwap, .f0, by decide⟩

theorem met_SwapsWaitForTheirTime_2 : ∃ (s : State), ∃ (u : State) (new : Half), u = s.reach s.swapTime ∧ new = u.img.half
    (!u.activeHalf) ∧ s.swapPending = true ∧ s.img.reached = false ∧ u.swapPending = true :=
  ⟨State.reset.setFlag R.IMG_STATUS_SWAP_PENDING true, _, _, rfl, rfl, by decide⟩

theorem met_ArithmeticSlotsWriteTheirSaturatedResult_1 : ∃ (s : State) (x : Fin 16) (r : Run), s.executes x r opMov :=
  ⟨(slotState 0x2200288006200002), 0, ⟨0, false, 0, 0, false, false⟩, by decide⟩

theorem met_ArithmeticSlotsWriteTheirSaturatedResult_2 : ∃ (s : State) (x : Fin 16) (r : Run), s.executes x r opAbs :=
  ⟨(slotState 0x2200288006200007), 0, ⟨0, false, 0, 0, false, false⟩, by decide⟩

theorem met_ArithmeticSlotsWriteTheirSaturatedResult_3 : ∃ (s : State) (x : Fin 16) (r : Run), s.executes x r opNeg :=
  ⟨(slotState 0x2200288006200008), 0, ⟨0, false, 0, 0, false, false⟩, by decide⟩

theorem met_ArithmeticSlotsWriteTheirSaturatedResult_4 : ∃ (s : State) (x : Fin 16) (r : Run), s.executes x r opShl :=
  ⟨(slotState 0x388006200010), 0, ⟨0, false, 0, 0, false, false⟩, by decide⟩

theorem met_ArithmeticSlotsWriteTheirSaturatedResult_5 : ∃ (s : State) (x : Fin 16) (r : Run), s.executes x r opShr :=
  ⟨(slotState 0x388006200011), 0, ⟨0, false, 0, 0, false, false⟩, by decide⟩

theorem met_ArithmeticSlotsWriteTheirSaturatedResult_6 : ∃ (s : State) (x : Fin 16) (r : Run), s.executes x r opAdd :=
  ⟨(slotState 0x2200288006200003), 0, ⟨0, false, 0, 0, false, false⟩, by decide⟩

theorem met_ArithmeticSlotsWriteTheirSaturatedResult_7 : ∃ (s : State) (x : Fin 16) (r : Run), s.executes x r opSub :=
  ⟨(slotState 0x2200288006200004), 0, ⟨0, false, 0, 0, false, false⟩, by decide⟩

theorem met_ArithmeticSlotsWriteTheirSaturatedResult_8 : ∃ (s : State) (x : Fin 16) (r : Run), s.executes x r opMin :=
  ⟨(slotState 0x2200288006200005), 0, ⟨0, false, 0, 0, false, false⟩, by decide⟩

theorem met_ArithmeticSlotsWriteTheirSaturatedResult_9 : ∃ (s : State) (x : Fin 16) (r : Run), s.executes x r opMax :=
  ⟨(slotState 0x2200288006200006), 0, ⟨0, false, 0, 0, false, false⟩, by decide⟩

theorem met_ArithmeticSlotsWriteTheirSaturatedResult_10 : ∃ (s : State) (x : Fin 16) (r : Run), s.executes x r opMuls32 :=
  ⟨(slotState 0x2200288006200024), 0, ⟨0, false, 0, 0, false, false⟩, by decide⟩

theorem met_SelectingSlotsWriteTheirResult_1 : ∃ (s : State) (x : Fin 16) (r : Run), s.executes x r opClamp :=
  ⟨(slotState 0x2200288006200009), 0, ⟨0, false, 0, 0, false, false⟩, by decide⟩

theorem met_SelectingSlotsWriteTheirResult_2 : ∃ (s : State) (x : Fin 16) (r : Run), s.executes x r opSel :=
  ⟨(slotState 0x220028800620000A), 0, ⟨0, false, 0, 0, false, false⟩, by decide⟩

theorem met_SelectingSlotsWriteTheirResult_3 : ∃ (s : State) (x : Fin 16) (r : Run), s.executes x r opLdi :=
  ⟨(slotState 0xA200288006200018), 0, ⟨0, false, 0, 0, false, false⟩, by decide⟩

theorem met_SelectingSlotsWriteTheirResult_4 : ∃ (s : State) (x : Fin 16) (r : Run), s.executes x r opAccst :=
  ⟨(slotState 0x2088006200023), 0, ⟨0, false, 0, 0, false, false⟩, by decide⟩

theorem met_SelectingSlotsWriteTheirResult_5 : ∃ (s : State) (x : Fin 16) (r : Run), s.executes x r opSin :=
  ⟨(slotState 0x2200288006200030), 0, ⟨0, false, 0, 0, false, false⟩, by decide⟩

theorem met_SelectingSlotsWriteTheirResult_6 : ∃ (s : State) (x : Fin 16) (r : Run), s.executes x r opCos :=
  ⟨(slotState 0x2200288006200031), 0, ⟨0, false, 0, 0, false, false⟩, by decide⟩

theorem met_TileRegisterSlotsSetAccAndC_1 : ∃ (s : State) (x : Fin 16) (r : Run), s.executes x r opNop :=
  ⟨(slotState 0x1), 0, ⟨0, false, 0, 0, false, false⟩, by decide⟩

theorem met_TileRegisterSlotsSetAccAndC_2 : ∃ (s : State) (x : Fin 16) (r : Run), s.executes x r opCmplt :=
  ⟨(slotState 0x220028800400000B), 0, ⟨0, false, 0, 0, false, false⟩, by decide⟩

theorem met_TileRegisterSlotsSetAccAndC_3 : ∃ (s : State) (x : Fin 16) (r : Run), s.executes x r opCmple :=
  ⟨(slotState 0x220028800400000C), 0, ⟨0, false, 0, 0, false, false⟩, by decide⟩

theorem met_TileRegisterSlotsSetAccAndC_4 : ∃ (s : State) (x : Fin 16) (r : Run), s.executes x r opMacz :=
  ⟨(slotState 0x2200288004000020), 0, ⟨0, false, 0, 0, false, false⟩, by decide⟩

theorem met_TileRegisterSlotsSetAccAndC_5 : ∃ (s : State) (x : Fin 16) (r : Run), s.executes x r opMac :=
  ⟨(slotState 0x2200288004000021), 0, ⟨0, false, 0, 0, false, false⟩, by decide⟩

theorem met_TileRegisterSlotsSetAccAndC_6 : ∃ (s : State) (x : Fin 16) (r : Run), s.executes x r opMsu :=
  ⟨(slotState 0x2200288004000022), 0, ⟨0, false, 0, 0, false, false⟩, by decide⟩

theorem met_TileRegisterSlotsSetAccAndC_7 : ∃ (s : State) (x : Fin 16) (r : Run), s.executes x r opInteg :=
  ⟨(slotState 0x2200288006101028), 0, ⟨0, false, 0, 0, false, false⟩, by decide⟩

theorem met_TileRegisterSlotsSetAccAndC_8 : ∃ (s : State) (x : Fin 16) (r : Run), s.executes x r opChk :=
  ⟨(slotState 0x2200288006200038), 0, ⟨0, false, 0, 0, false, false⟩, by decide⟩

theorem met_SlotWordsAdvanceTheRun_1 : ∃ (s : State) (x : Fin 16) (r : Run), s.tiles[x].run = some r ∧ r.done + 1 <
    (s.img.half r.half).runLen r.header :=
  ⟨{ slotState 0x2200288006200003 with img := { half0 := [0, 0, 0, 0, 48, 0, 0x2002000, 0x2200288006200003, 0] } }, 0, ⟨0, false, 0, 0, false, false⟩, by decide⟩

theorem met_SlotWordsAdvanceTheRun_2 : ∃ (s : State) (x : Fin 16) (r : Run), s.tiles[x].run = some r ∧ (s.img.half
    r.half).runLen r.header ≤ r.done + 1 :=
  ⟨slotState 0x2200288006200003, 0, ⟨0, false, 0, 0, false, false⟩, by decide⟩

theorem met_SlotWordsAdvanceTheRun_3 : ∃ (s : State) (x : Fin 16) (r : Run), ∃ y : Fin 16, s.tiles[x].run = some r ∧ y ≠ x
    :=
  ⟨slotState 0x2200288006200003, 0, ⟨0, false, 0, 0, false, false⟩, 1, by decide⟩

theorem met_SlotWordsAdvanceTheRun_4 : ∃ (s : State) (x : Fin 16) (r : Run), s.tiles[x].run = some r ∧ r.dead = true :=
  ⟨{ slotState 0x2200288006200003 with tiles := upd State.reset.tiles 0 fun y => { y with run := some ⟨0, false, 0, 0, true, false⟩ } }, 0, ⟨0, false, 0, 0, true, false⟩, by decide⟩

theorem met_SlotWordsAdvanceTheRun_5 : ∃ (s : State) (x : Fin 16) (r : Run), ∃ c ∈ slotCommands x, s.tiles[x].run = some r ∧
    (r.dead = true ∨ r.mute = true) ∧ (s.slotAt r).op = c.1 :=
  ⟨{ slotState 0x2200288006200003 with tiles := upd State.reset.tiles 0 fun y => { y with run := some ⟨0, false, 0, 0, true, false⟩ } }, 0, ⟨0, false, 0, 0, true, false⟩, (opAdd, .add 0), by decide, by decide⟩

theorem met_SlotWordFieldsAreRead : ∃ op dst a b md : Nat, op < 2 ^ 8 ∧ dst < 2 ^ 18 ∧ a < 2 ^ 18 ∧ b < 2 ^ 18 ∧ md < 2 ^ 2
    :=
  ⟨255, 262143, 1, 2, 3, by decide⟩

theorem met_IntakeTakesHeadsAndDescriptors_1 : ∃ (s : State) (e : Fin 8), ∃ (preload : Bool) (w : Vector (BitVec 64) 4) (bad
    : Bool), bad = (headBad (w[1].setWidth 16) (s.ez e).cplHead (s.cplTail e) || headBad (w[2].setWidth 16) (s.ez
    e).evt.head (BitVec.ofNat 16 (s.get (R.RING_IDX1_EVT_TAIL e))) || headBad (w[3].setWidth 16) (s.ez e).smp.head
    (BitVec.ofNat 16 (s.get (R.RING_IDX1_SMP_TAIL e))) || decide (2 ^ s.get (R.RING_SIZE_CMD_LOG2 e) < (w[0].setWidth 16 -
    s.cmdHead e).toNat) || w[0].ushiftRight 16 != 0 || w[1].ushiftRight 16 != 0 || w[2].ushiftRight 16 != 0 ||
    w[3].ushiftRight 16 != 0) ∧ (s.ez e).intakeStale = false ∧ (s.ez e).intake = .doorbell preload :=
  ⟨{ wServed with easels := upd wServed.easels 0 fun z => { z with intake := .doorbell false } }, 0, false, #v[0, 1, 0, 0], _, rfl, by decide⟩

theorem met_IntakeTakesHeadsAndDescriptors_2 : ∃ (s : State) (e : Fin 8), ∃ (reads : List (BitVec 64 × Nat)) (u : State), u
    = s.reachAge (s.ez e).issueAt ∧ (s.ez e).intakeStale = false ∧ (s.ez e).intake = .fetch reads ∧ (u.ez e).intake = .fetch
    reads :=
  ⟨{ wServed with easels := upd wServed.easels 0 fun z => { z with intake := .fetch [(0x1000, 2)] } }, 0, [(0x1000, 2)], _, rfl, by decide⟩

theorem met_IntakeTakesHeadsAndDescriptors_6 : ∃ (s : State) (e : Fin 8), ∃ (d : Entry) (l : List (BitVec 64 × Nat)), (s.ez
    e).intakeStale = false ∧ (s.ez e).intake = .descs l :=
  ⟨{ wServed with easels := upd wServed.easels 0 fun z => { z with intake := .descs [(0x1000, 2)] } }, 0, slot40, [(0x1000, 2)], by decide⟩

theorem met_IntakeTakesHeadsAndDescriptors_7 : ∃ (s : State) (e : Fin 8), ∃ (c : Instr) (rest : IntakePhase), (s.ez
    e).intakeStale = false ∧ ((c = .doorbellReadComplete e none ∧ (∃ b, (s.ez e).intake = .doorbell b) ∧ rest = .idle) ∨ (c
    = .dmaReadFail e ∧ (∃ b, (s.ez e).intake = .doorbell b) ∧ rest = .idle) ∨ (c = .dmaReadFail e ∧ ∃ l, (s.ez e).intake =
    .descs l ∧ rest = (if l.tail.isEmpty then .idle else .descs l.tail))) :=
  ⟨{ wServed with easels := upd wServed.easels 0 fun z => { z with intake := .descs [(0x1000, 1)] } }, 0, .dmaReadFail 0, .idle, by decide, Or.inr (Or.inr ⟨rfl, _, rfl, rfl⟩)⟩

theorem met_HeadPollsTakeTheHeads_1 : ∃ (s : State), ∃ (e : Fin 8) (u : State), u = s.reachAge ((s.ez e).pollFrom + 128000)
    ∧ s.mayDma e = true ∧ (s.ez e).poll = false :=
  ⟨wServed, 0, _, rfl, by decide⟩

theorem met_HeadPollsTakeTheHeads_2 : ∃ (s : State), ∃ (u : State), u = s.reachAge (s.f0PollFrom + 128000) ∧ s.f0Served =
    true ∧ s.f0Poll = false :=
  ⟨{ (State.reset.setFlag R.F0_RING_CTRL_EN true |>.setFlag R.LINK_STATUS_DL_ACTIVE true) with bme := 1 }, _, rfl, by decide⟩

theorem met_HeadPollsTakeTheHeads_3 : ∃ (s : State), ∃ (e : Fin 8) (w : Vector (BitVec 64) 3) (bad : Bool), bad = (headBad
    (w[0].setWidth 16) (s.ez e).cplHead (s.cplTail e) || headBad (w[1].setWidth 16) (s.ez e).evt.head (BitVec.ofNat 16
    (s.get (R.RING_IDX1_EVT_TAIL e))) || headBad (w[2].setWidth 16) (s.ez e).smp.head (BitVec.ofNat 16 (s.get
    (R.RING_IDX1_SMP_TAIL e))) || w[0].ushiftRight 16 != 0 || w[1].ushiftRight 16 != 0 || w[2].ushiftRight 16 != 0) ∧ (s.ez
    e).poll = true ∧ (s.ez e).pollStale = false :=
  ⟨{ wServed with easels := upd wServed.easels 0 fun z => { z with poll := true } }, 0, #v[0, 0, 0], _, rfl, by decide⟩

theorem met_HeadPollsTakeTheHeads_4 : ∃ (s : State) (e : Fin 8), (s.ez e).poll = true :=
  ⟨{ wServed with easels := upd (wServed).easels 0 fun z => { z with poll := true } }, 0, by decide⟩

theorem met_HeadPollsTakeTheHeads_5 : ∃ (s : State), ∃ (w : Vector (BitVec 64) 3) (bad : Bool), bad = (headBad
    (w[1].setWidth 16) s.f0.head (BitVec.ofNat 16 (s.get R.F0_RING_STATUS_EVT_TAIL)) || w[1].ushiftRight 16 != 0) ∧ s.f0Poll
    = true ∧ s.f0PollStale = false :=
  ⟨{ f0Poll := true }, #v[0, 0, 0], _, rfl, by decide⟩

theorem met_HeadPollsTakeTheHeads_6 : ∃ (s : State), s.f0Poll = true :=
  ⟨{ f0Poll := true }, by decide⟩

theorem met_EndedTransactionsGoToTheCompletionRing_1 : ∃ (s : State) (e : Fin 8), s.mayDma e = true ∧ s.linkFree (fnOf e) 2
    = true ∧ (s.ez e).writable.isEmpty = false :=
  ⟨{ wServed with easels := upd wServed.easels 0 fun z => { z with ledger := [{ desc := #v[1, 0, 0, 0, 0, 0, 0, 0], st := .committed, replay := false, resv := true, late := false, cmdIdx := 6, accTime := 0, accAge := 0, db := 0, read := .none, data := [], commitTs := 0, err := allClean }] } }, 0, by decide⟩

theorem met_EndedTransactionsGoToTheCompletionRing_2 : ∃ (s : State) (e : Fin 8), s.mayDma e = true ∧ s.linkFree (fnOf e) 2
    = true ∧ (s.ez e).writable.isEmpty = true ∧ (s.ez e).stOwed = true :=
  ⟨{ wServed with easels := upd wServed.easels 0 fun z => { z with stOwed := true } }, 0, by decide⟩

theorem met_StagedEntriesGoToTheirRings_1 : ∃ (s : State), ∃ (e : Fin 8) (x : EventE) (q : List EventE), (s.ez
    e).evt.entries = x :: q ∧ s.mayDma e = true ∧ s.linkFree (fnOf e) 3 = true ∧ 2 ≤ ringFree (s.get (R.RING_SIZE_EVT_LOG2
    e)) (BitVec.ofNat 16 (s.get (R.RING_IDX1_EVT_TAIL e))) (s.ez e).evt.head :=
  ⟨{ wServed with easels := upd wServed.easels 0 fun z => { z with evt := { entries := [{ code := 0x30, easel := none, count := 1, tFirst := 0, tLast := 0, dbFirst := 0, arg0 := 0, arg1 := 0, arg2 := 0, arg3 := 0, arg4 := 0 }], drops := 2 } } }, 0, { code := 0x30, easel := none, count := 1, tFirst := 0, tLast := 0, dbFirst := 0, arg0 := 0, arg1 := 0, arg2 := 0, arg3 := 0, arg4 := 0 }, [], by decide⟩

theorem met_StagedEntriesGoToTheirRings_2 : ∃ (s : State), ∃ (e : Fin 8) (x : SampleE) (q : List SampleE), (s.ez
    e).smp.entries = x :: q ∧ s.mayDma e = true ∧ s.linkFree (fnOf e) 4 = true ∧ 2 ≤ ringFree (s.get (R.RING_SIZE_SMP_LOG2
    e)) (BitVec.ofNat 16 (s.get (R.RING_IDX1_SMP_TAIL e))) (s.ez e).smp.head :=
  ⟨{ wServed with easels := upd wServed.easels 0 fun z => { z with smp := { entries := [⟨7, []⟩] } } }, 0, ⟨7, []⟩, [], by decide⟩

theorem met_StagedEntriesGoToTheirRings_3 : ∃ (s : State), ∃ (x : EventE) (q : List EventE), s.f0.entries = x :: q ∧
    s.f0Served = true ∧ s.linkFree 0 3 = true ∧ 2 ≤ ringFree (s.get R.F0_RING_CTRL_EVT_LOG2) (BitVec.ofNat 16 (s.get
    R.F0_RING_STATUS_EVT_TAIL)) s.f0.head :=
  ⟨{ (State.reset.setFlag R.F0_RING_CTRL_EN true |>.setFlag R.LINK_STATUS_DL_ACTIVE true) with bme := 1, f0 := { entries := [{ code := 0x30, easel := none, count := 1, tFirst := 0, tLast := 0, dbFirst := 0, arg0 := 0, arg1 := 0, arg2 := 0, arg3 := 0, arg4 := 0 }] } }, { code := 0x30, easel := none, count := 1, tFirst := 0, tLast := 0, dbFirst := 0, arg0 := 0, arg1 := 0, arg2 := 0, arg3 := 0, arg4 := 0 }, [], by decide⟩

theorem met_RingEnablesAndLinkFaults_1 : ∃ (s : State) (e : Fin 8) (a : Agent), s.reachesWindow a e = true ∧ s.flag
    (R.RING_CTRL_EN e) = false ∧ s.run e = false ∧ s.ringsBad e = false ∧ (s.setFlag (R.RING_CTRL_EN e) true).grantClash e =
    [] :=
  ⟨wRings, 0, .fn 0, by decide⟩

theorem met_RingEnablesAndLinkFaults_2 : ∃ (s : State) (e : Fin 8) (a : Agent), s.reachesWindow a e = true :=
  ⟨wServed, 0, .f0, by decide⟩

theorem met_RingEnablesAndLinkFaults_3 : ∃ (s : State) (a : Agent), s.reaches a = true ∧ s.flag R.F0_RING_CTRL_EN = false :=
  ⟨State.reset, .f0, by decide⟩

theorem met_RingEnablesAndLinkFaults_4 : ∃ (s : State) (a : Agent), s.reaches a = true :=
  ⟨State.reset, .sp, by decide⟩

theorem met_RingEnablesAndLinkFaults_5 : ∃ (s : State), s.dlActive = true :=
  ⟨wServed, by decide⟩

theorem met_RingEnablesAndLinkFaults_6 : ∃ (s : State) (e : Fin 8) (fn : Fin 9), s.bme.getLsbD fn.val = true ∧ fn.val =
    e.val + 1 :=
  ⟨wServed, 3, 4, by decide⟩

theorem met_RingEnablesAndLinkFaults_7 : ∃ (s : State), s.bme.getLsbD 0 = true :=
  ⟨{ bme := 1 }, by decide⟩

theorem met_RingEnablesAndLinkFaults_8 : ∃ (s : State) (e : Fin 8) (fn : Fin 9), s.sup.inReset = false ∧ fn.val = e.val + 1
    ∧ (s.ez e).reset = none :=
  ⟨wServed, 0, 1, by decide⟩

theorem met_RingEnablesAndLinkFaults_9 : ∃ (s : State), s.sup.inReset = false :=
  ⟨wServed, by decide⟩

theorem met_DescriptorsTakeEffectAtTheirCommit_1 : ∃ (s : State) (e : Fin 8), ∃ (x : LEntry), s.sup.inReset = false ∧ s.run
    e = false ∧ s.preloadActive e = true ∧ s.nextHolds e cmdNop = true ∧ (s.reachMultiple 128000).preloadActive e = true ∧
    (s.reachMultiple 128000).hold = false ∧ (s.reachMultiple 128000).withheldBy e = false ∧ ((s.reachMultiple 128000).ez
    e).ledger = [x] ∧ x.st = .pending ∧ x.resv = true ∧ x.err = allClean ∧ x.desc.glenM1 = 0 ∧ x.desc.atEn = false ∧
    x.accAge + 500 ≤ (s.reachMultiple 128000).age ∧ x.desc.op = cmdNop :=
  ⟨wPreload [{ desc := #v[1, 0, 0, 0, 0, 0, 0, 0], st := .pending, replay := false, resv := true, late := false, cmdIdx := 6, accTime := 0, accAge := 0, db := 0, read := .none, data := [], commitTs := 0, err := allClean }], 0, { desc := #v[1, 0, 0, 0, 0, 0, 0, 0], st := .pending, replay := false, resv := true, late := false, cmdIdx := 6, accTime := 0, accAge := 0, db := 0, read := .none, data := [], commitTs := 0, err := allClean }, by decide⟩

theorem met_DescriptorsTakeEffectAtTheirCommit_2 : ∃ (s : State) (e : Fin 8), ∃ (x : LEntry), s.sup.inReset = false ∧ s.run
    e = false ∧ s.preloadActive e = true ∧ s.nextHolds e cmdStateWr = true ∧ (s.reachMultiple 128000).preloadActive e = true
    ∧ (s.reachMultiple 128000).hold = false ∧ (s.reachMultiple 128000).withheldBy e = false ∧ ((s.reachMultiple 128000).ez
    e).ledger = [x] ∧ x.st = .pending ∧ x.resv = true ∧ x.err = allClean ∧ x.desc.glenM1 = 0 ∧ x.desc.atEn = false ∧
    x.accAge + 500 ≤ (s.reachMultiple 128000).age ∧ x.desc.op = cmdStateWr :=
  ⟨wPreload [{ desc := #v[2, 0, 2097157, 11, 12, 0, 0, 0], st := .pending, replay := false, resv := true, late := false, cmdIdx := 6, accTime := 0, accAge := 0, db := 0, read := .none, data := [], commitTs := 0, err := allClean }], 0, { desc := #v[2, 0, 2097157, 11, 12, 0, 0, 0], st := .pending, replay := false, resv := true, late := false, cmdIdx := 6, accTime := 0, accAge := 0, db := 0, read := .none, data := [], commitTs := 0, err := allClean }, by decide⟩

theorem met_DescriptorsTakeEffectAtTheirCommit_3 : ∃ (s : State) (e : Fin 8), ∃ (x : LEntry), s.sup.inReset = false ∧ s.run
    e = false ∧ s.preloadActive e = true ∧ s.nextHolds e cmdBankWr = true ∧ (s.reachMultiple 128000).preloadActive e = true
    ∧ (s.reachMultiple 128000).hold = false ∧ (s.reachMultiple 128000).withheldBy e = false ∧ ((s.reachMultiple 128000).ez
    e).ledger = [x] ∧ x.st = .pending ∧ x.resv = true ∧ x.err = allClean ∧ x.desc.glenM1 = 0 ∧ x.desc.atEn = false ∧
    x.accAge + 500 ≤ (s.reachMultiple 128000).age ∧ x.desc.op = cmdBankWr :=
  ⟨wPreload [{ desc := #v[3, 0, 2097157, 11, 12, 0, 0, 0], st := .pending, replay := false, resv := true, late := false, cmdIdx := 6, accTime := 0, accAge := 0, db := 0, read := .none, data := [], commitTs := 0, err := allClean }], 0, { desc := #v[3, 0, 2097157, 11, 12, 0, 0, 0], st := .pending, replay := false, resv := true, late := false, cmdIdx := 6, accTime := 0, accAge := 0, db := 0, read := .none, data := [], commitTs := 0, err := allClean }, by decide⟩

theorem met_DescriptorsTakeEffectAtTheirCommit_4 : ∃ (s : State) (e : Fin 8), ∃ (x : LEntry), s.sup.inReset = false ∧ s.run
    e = false ∧ s.preloadActive e = true ∧ s.nextHolds e cmdStateRd = true ∧ (s.reachMultiple 128000).preloadActive e = true
    ∧ (s.reachMultiple 128000).hold = false ∧ (s.reachMultiple 128000).withheldBy e = false ∧ ((s.reachMultiple 128000).ez
    e).ledger = [x] ∧ x.st = .pending ∧ x.resv = true ∧ x.err = allClean ∧ x.desc.glenM1 = 0 ∧ x.desc.atEn = false ∧
    x.accAge + 500 ≤ (s.reachMultiple 128000).age ∧ x.desc.op = cmdStateRd :=
  ⟨wPreload [{ desc := #v[4, 0, 2097157, 0, 0, 0, 0, 0], st := .pending, replay := false, resv := true, late := false, cmdIdx := 6, accTime := 0, accAge := 0, db := 0, read := .none, data := [], commitTs := 0, err := allClean }], 0, { desc := #v[4, 0, 2097157, 0, 0, 0, 0, 0], st := .pending, replay := false, resv := true, late := false, cmdIdx := 6, accTime := 0, accAge := 0, db := 0, read := .none, data := [], commitTs := 0, err := allClean }, by decide⟩

theorem met_DescriptorsTakeEffectAtTheirCommit_5 : ∃ (s : State) (e : Fin 8), ∃ (x : LEntry), s.sup.inReset = false ∧ s.run
    e = false ∧ s.preloadActive e = true ∧ s.nextHolds e cmdBankRd = true ∧ (s.reachMultiple 128000).preloadActive e = true
    ∧ (s.reachMultiple 128000).hold = false ∧ (s.reachMultiple 128000).withheldBy e = false ∧ ((s.reachMultiple 128000).ez
    e).ledger = [x] ∧ x.st = .pending ∧ x.resv = true ∧ x.err = allClean ∧ x.desc.glenM1 = 0 ∧ x.desc.atEn = false ∧
    x.accAge + 500 ≤ (s.reachMultiple 128000).age ∧ x.desc.op = cmdBankRd ∧ x.read = .none :=
  ⟨wPreload [{ desc := #v[5, 0, 2097157, 0, 0, 0, 0, 0], st := .pending, replay := false, resv := true, late := false, cmdIdx := 6, accTime := 0, accAge := 0, db := 0, read := .none, data := [], commitTs := 0, err := allClean }], 0, { desc := #v[5, 0, 2097157, 0, 0, 0, 0, 0], st := .pending, replay := false, resv := true, late := false, cmdIdx := 6, accTime := 0, accAge := 0, db := 0, read := .none, data := [], commitTs := 0, err := allClean }, by decide⟩

theorem met_DescriptorsTakeEffectAtTheirCommit_6 : ∃ (s : State) (e : Fin 8), ∃ (x : LEntry) (at_ : Nat) (ws : List (Word ×
    Bool)), s.sup.inReset = false ∧ s.run e = false ∧ s.preloadActive e = true ∧ s.nextHolds e cmdBankRd = true ∧
    (s.reachMultiple 128000).preloadActive e = true ∧ (s.reachMultiple 128000).hold = false ∧ (s.reachMultiple
    128000).withheldBy e = false ∧ ((s.reachMultiple 128000).ez e).ledger = [x] ∧ x.st = .pending ∧ x.resv = true ∧ x.err =
    allClean ∧ x.desc.glenM1 = 0 ∧ x.desc.atEn = false ∧ x.accAge + 500 ≤ (s.reachMultiple 128000).age ∧ x.desc.op =
    cmdBankRd ∧ x.read = .served at_ ws ∧ at_ + 500 ≤ (s.reachMultiple 128000).age :=
  ⟨wPreload [{ desc := #v[5, 0, 2097157, 0, 0, 0, 0, 0], st := .pending, replay := false, resv := true, late := false, cmdIdx := 6, accTime := 0, accAge := 0, db := 0, read := .served 0 [(7, false)], data := [], commitTs := 0, err := allClean }], 0, { desc := #v[5, 0, 2097157, 0, 0, 0, 0, 0], st := .pending, replay := false, resv := true, late := false, cmdIdx := 6, accTime := 0, accAge := 0, db := 0, read := .served 0 [(7, false)], data := [], commitTs := 0, err := allClean }, 0, [(7, false)], by decide⟩

theorem met_DescriptorsTakeEffectAtTheirCommit_7 : ∃ (s : State) (e : Fin 8), s.sup.inReset = false ∧ s.run e = true ∧
    s.nextHolds e cmdNop = true :=
  ⟨(wPreload [{ desc := #v[1, 0, 0, 0, 0, 0, 0, 0], st := .pending, replay := false, resv := true, late := false, cmdIdx := 6, accTime := 0, accAge := 0, db := 0, read := .none, data := [], commitTs := 0, err := allClean }]).setFlag (R.DB_CTRL_RUN 0) true, 0, by decide⟩

theorem met_DescriptorsTakeEffectAtTheirCommit_8 : ∃ (s : State) (e : Fin 8), s.sup.inReset = false ∧ s.run e = true ∧
    s.nextHolds e cmdStateWr = true :=
  ⟨(wPreload [{ desc := #v[2, 0, 2097157, 11, 12, 0, 0, 0], st := .pending, replay := false, resv := true, late := false, cmdIdx := 6, accTime := 0, accAge := 0, db := 0, read := .none, data := [], commitTs := 0, err := allClean }]).setFlag (R.DB_CTRL_RUN 0) true, 0, by decide⟩

theorem met_DescriptorsTakeEffectAtTheirCommit_9 : ∃ (s : State) (e : Fin 8), s.sup.inReset = false ∧ s.run e = true ∧
    s.nextHolds e cmdBankWr = true :=
  ⟨(wPreload [{ desc := #v[3, 0, 2097157, 11, 12, 0, 0, 0], st := .pending, replay := false, resv := true, late := false, cmdIdx := 6, accTime := 0, accAge := 0, db := 0, read := .none, data := [], commitTs := 0, err := allClean }]).setFlag (R.DB_CTRL_RUN 0) true, 0, by decide⟩

theorem met_DescriptorsTakeEffectAtTheirCommit_10 : ∃ (s : State) (e : Fin 8), s.sup.inReset = false ∧ s.run e = true ∧
    s.nextHolds e cmdStateRd = true :=
  ⟨(wPreload [{ desc := #v[4, 0, 2097157, 0, 0, 0, 0, 0], st := .pending, replay := false, resv := true, late := false, cmdIdx := 6, accTime := 0, accAge := 0, db := 0, read := .none, data := [], commitTs := 0, err := allClean }]).setFlag (R.DB_CTRL_RUN 0) true, 0, by decide⟩

theorem met_DescriptorsTakeEffectAtTheirCommit_11 : ∃ (s : State) (e : Fin 8), s.sup.inReset = false ∧ s.run e = true ∧
    s.nextHolds e cmdBankRd = true :=
  ⟨(wPreload [{ desc := #v[5, 0, 2097157, 0, 0, 0, 0, 0], st := .pending, replay := false, resv := true, late := false, cmdIdx := 6, accTime := 0, accAge := 0, db := 0, read := .none, data := [], commitTs := 0, err := allClean }]).setFlag (R.DB_CTRL_RUN 0) true, 0, by decide⟩

theorem met_LedgerReadsAbortsAndServes_1 : ∃ (s : State) (e : Fin 8) (stalled : Fin 6) (i : Nat) (x : LEntry), (s.ez
    e).issuedRead = some i ∧ (s.ez e).ledger[i]? = some x :=
  ⟨(wPreload [{ desc := #v[5, 0, 2097157, 0, 0, 0, 0, 0], st := .pending, replay := false, resv := true, late := false, cmdIdx := 6, accTime := 0, accAge := 0, db := 0, read := .issued, data := [], commitTs := 0, err := allClean }]), 0, 2, 0, { desc := #v[5, 0, 2097157, 0, 0, 0, 0, 0], st := .pending, replay := false, resv := true, late := false, cmdIdx := 6, accTime := 0, accAge := 0, db := 0, read := .issued, data := [], commitTs := 0, err := allClean }, by decide⟩

theorem met_LedgerReadsAbortsAndServes_2 : ∃ (s : State) (e : Fin 8) (a : Agent), ((s.reaches a = true ∨ s.reachesWindow a e
    = true)) :=
  ⟨(wPreload [{ desc := #v[1, 0, 0, 0, 0, 0, 0, 0], st := .pending, replay := false, resv := true, late := false, cmdIdx := 6, accTime := 0, accAge := 0, db := 0, read := .none, data := [], commitTs := 0, err := allClean }]), 0, .fn 0, by decide⟩

theorem met_LedgerReadsAbortsAndServes_3 : ∃ (s : State) (a : Agent) (v : BitVec 32) (e : Fin 8) (x : LEntry), s.reaches a =
    true ∧ v &&& ~~~0x70FFF#32 = 0 ∧ v.toNat / 2 ^ 16 % 8 = e.val ∧ (s.ez e).ledger[(v.toNat % 4096 + 4096 - (s.ez
    e).ret.toNat % 4096) % 4096]? = some x :=
  ⟨(wPreload [{ desc := #v[1, 0, 0, 0, 0, 0, 0, 0], st := .pending, replay := false, resv := true, late := false, cmdIdx := 6, accTime := 0, accAge := 0, db := 0, read := .none, data := [], commitTs := 0, err := allClean }]), .f0, 0, 0, { desc := #v[1, 0, 0, 0, 0, 0, 0, 0], st := .pending, replay := false, resv := true, late := false, cmdIdx := 6, accTime := 0, accAge := 0, db := 0, read := .none, data := [], commitTs := 0, err := allClean }, by decide⟩

theorem met_EaselResetsChokeClearAndRenew_1 : ∃ (s : State) (e : Fin 8) (c : ResetCause), s.resetAllowed c = true ∧ (s.ez
    e).reset = none :=
  ⟨wOwned, 2, .erstCtrl, by decide⟩

theorem met_EaselResetsChokeClearAndRenew_2 : ∃ (s : State) (e : Fin 8), (s.ez e).reset.isSome = true :=
  ⟨{ wOwned with easels := upd wOwned.easels 2 fun z => { z with reset := some .watchdog } }, 2, by decide⟩

theorem met_OwnerWritesMoveAndChokeLegs : ∃ (s : State) (a : Agent) (adr : BitVec 24) (v : BitVec 32), s.mayWrite a 2 = true
    ∧ isOwnerReg adr.toNat = true ∧ v.toNat ≤ ownerMask adr.toNat ∧ s.overruled a adr.toNat = 0 ∧ s.ownerClash adr.toNat
    (Cells.get 0 adr.toNat s.regs).toNat v.toNat = [] :=
  ⟨wOwned, .f0, 0x3000, 0x00900000, by decide⟩

theorem met_TheTransparentTestIsTransparent_1 : ∃ (s : State) (e : Fin 8) (sub : Fin 16), s.testBusy e = true ∧ (s.ez
    e).btest.steps[sub] < 48 :=
  ⟨(State.reset.setFlag (R.BTEST_STATUS_BUSY 1) true), 1, 4, by decide⟩

theorem met_TheTransparentTestIsTransparent_2 : ∃ (s : State) (e : Fin 8) (sub : Fin 16) (d : BitVec 48) (j : Nat),
    s.testBusy e = true ∧ testAccess (s.ez e).btest.steps[sub] = .marchRead j ∧ (s.ez e).btest.steps[sub] < 44 ∧ d ≠ 0 ∧
    (s.ez e).btest.next < 2048 :=
  ⟨wTest, 1, 4, 8, 0, by decide⟩

theorem met_TheTransparentTestIsTransparent_3 : ∃ (s : State) (e : Fin 8) (a : Agent), s.reachesWindow a e = true ∧ s.flag
    (R.BTEST_STATUS_PARKED e) = true :=
  ⟨(State.reset.setFlag (R.BTEST_STATUS_PARKED 0) true), 0, .fn 0, by decide⟩

theorem met_PreloadPointsFetchWhileStopped_1 : ∃ (s : State) (e : Fin 8) (a : Agent) (on : Bool), s.reachesWindow a e = true
    ∧ s.run e = false :=
  ⟨State.reset, 0, .f0, true, by decide⟩

theorem met_PreloadPointsFetchWhileStopped_2 : ∃ (s : State) (e : Fin 8) (a : Agent) (on : Bool), s.run e = true :=
  ⟨wRunning, 0, .f0, true, by decide⟩

theorem met_PreloadPointsFetchWhileStopped_3 : ∃ (s : State) (e : Fin 8), ∃ (u : State), u = s.reachMultiple 128000 ∧
    s.preloadActive e = true ∧ u.preloadActive e = true :=
  ⟨wPreload [], 0, _, rfl, by decide⟩

theorem met_LegsFollowTheirCarrierAndDeadTime_1 : ∃ (s : State) (l : Fin 64), s.drive l s.time ≠ s.flag (R.LEG_STATUS_X l)
    :=
  ⟨{ wLeg with legs := upd wLeg.legs 3 fun g => { g with active := 0x80000000 } }, 3, by decide⟩

theorem met_LegsFollowTheirCarrierAndDeadTime_2 : ∃ (s : State) (l : Fin 64) (at_ : Nat), s.drive l s.time = s.flag
    (R.LEG_STATUS_X l) ∧ s.edgeAt l = some at_ :=
  ⟨{ wLeg with legs := upd wLeg.legs 3 fun g => { g with active := 0x80000000 }, time := 6000, age := 6000 }, 3, 10000, by decide⟩

theorem met_LegsFollowTheirCarrierAndDeadTime_3 : ∃ (s : State) (l : Fin 64), ∃ (u : State), u = s.reachAge (s.pinsDue
    l).2.2 ∧ s.flag (R.LEG_STATUS_CHOKED l) = false ∧ s.drive l s.time = s.flag (R.LEG_STATUS_X l) ∧ ((s.edgeAt l).all fun e
    => decide ((s.pinsDue l).2.2 ≤ s.age) || decide ((s.pinsDue l).2.2 < e)) = true :=
  ⟨wLeg, 3, _, rfl, by decide⟩

theorem met_LegsFollowTheirCarrierAndDeadTime_4 : ∃ (s : State) (l : Fin 64), ∃ (at_ : Nat) (u : State), u = s.reachAge
    (s.posAt l 0 (max s.age (at_ + 500))) ∧ (s.leg l).clearedAt = some at_ ∧ s.get (R.LEG_STATUS_CAUSE l) = 0 ∧ s.flag
    (R.LEG_STATUS_CHOKED l) = true :=
  ⟨{ (wLeg.setFlag (R.LEG_STATUS_CHOKED 3) true) with legs := upd wLeg.legs 3 fun g => { g with clearedAt := some 0 } }, 3, 0, _, rfl, by decide⟩

theorem met_FaultsAndComparatorsChoke_1 : ∃ (s : State), ∃ (l : Fin 64) (u : State), u = (s.setFlag (R.LEG_STATUS_FLT_IN l)
    false).reachCoarse :=
  ⟨wGroup, 3, _, rfl⟩

theorem met_FaultsAndComparatorsChoke_2 : ∃ (s : State), ∃ (c : Fin 64) (v : Int) (i : Fin 48), i = Fin.ofNat 48 (s.get
    (R.CMP_CFG_AIN c)) :=
  ⟨wGroup, 7, 1000, _, rfl⟩

theorem met_FaultsAndComparatorsChoke_3 : ∃ (s : State) (g : Fin 16) (a : Agent), s.reaches a = true :=
  ⟨wGroup, 2, .f0, by decide⟩

theorem met_FaultsAndComparatorsChoke_4 : ∃ (s : State) (g : Fin 16) (a : Agent), s.reaches a = true :=
  ⟨wGroup, 2, .f0, by decide⟩

theorem met_FaultsAndComparatorsChoke_5 : ∃ (s : State), ∃ (g : Fin 16) (a : Agent) (on : Bool), s.reaches a = false :=
  ⟨wGroup, 2, .fn 0, true, by decide⟩

theorem met_ChokeGroupsEndByTheirMode_1 : ∃ (s : State) (g : Fin 16), ∃ (u : State), u = s.reachCoarse ∧ s.groupActive g =
    true ∧ s.flag (R.CG_CTRL_GMODE g) = false :=
  ⟨wGroup.setFlag (R.CG_CTRL_ACTIVE 2) true, 2, _, rfl, by decide⟩

theorem met_ChokeGroupsEndByTheirMode_2 : ∃ (s : State) (g : Fin 16) (a : Agent), s.reaches a = true ∧ s.groupActive g =
    true ∧ s.flag (R.CG_CTRL_GMODE g) = true ∧ s.groupHeld g = false ∧ s.chokedNow g = false :=
  ⟨wActive, 2, .f0, by decide⟩

theorem met_ChokeGroupsEndByTheirMode_3 : ∃ (s : State) (g : Fin 16), ∃ (a : Agent), (s.reaches a = false ∨ s.groupActive g
    = false ∨ s.flag (R.CG_CTRL_GMODE g) = false ∨ s.groupHeld g = true ∨ s.chokedNow g = true) :=
  ⟨wGroup, 2, .fn 0, by decide⟩

theorem met_ComparatorsAndRouterSampleAtTheTick_1 : ∃ (s : State), ∃ (u : State), u = s.atSample :=
  ⟨wGroup, _, rfl⟩

theorem met_ComparatorsAndRouterSampleAtTheTick_2 : ∃ (s : State), ∃ (c : Fin 64) (at_ : Nat) (u : State), u = s.reachAge
    at_ ∧ s.cmps[c].blank = some at_ :=
  ⟨{ wGroup with cmps := upd wGroup.cmps 7 fun x => { x with blank := some 125 } }, 7, 125, _, rfl, by decide⟩

theorem met_ComparatorsAndRouterSampleAtTheTick_3 : ∃ (s : State), ∃ (c : Fin 64) (at_ : Nat) (u : State), u = (s.reachAge
    at_).modCmp c (fun x => { x with settle := none }) ∧ s.cmps[c].settle = some at_ :=
  ⟨{ cmps := upd State.reset.cmps 9 fun x => { x with settle := some 250 } }, 9, 250, _, rfl, by decide⟩

theorem met_FiredRoutesActAtTheNextTick_1 : ∃ (s : State) (r : Fin 128) (x : Fin 128 × Time) (pre rest : List (Fin 128 ×
    Time)) (v u : State) (d : Fin 8), ∃ k ∈ [(1, Instr.choke r), (2, Instr.latch r), (3, Instr.post r), (4, Instr.trigger
    r), (5, Instr.routeForceLimp r)], v = { s with router := { s.router with fired := rest } } ∧ u = v.reach (x.2 + 125) ∧ d
    = u.routeEasel r ∧ s.router.fired = pre ++ x :: rest ∧ (∀ y ∈ pre, y.1 ≠ r) ∧ x.1 = r ∧ s.get (R.ROUTE_ACTION r) = k.1
    :=
  ⟨{ (((wGroup.set (R.ROUTE_ACTION 4) 1).set (R.ROUTE_SRC 4) 7).set (R.ROUTE_ARG 4) 4) with router := { fired := [(4, 0)] } }, 4, (4, 0), [], [], _, _, _, (1, .choke 4), by decide, rfl, rfl, rfl, rfl, (fun _ h => nomatch h), rfl, by decide⟩

theorem met_FiredRoutesActAtTheNextTick_2 : ∃ (s : State) (r : Fin 128) (x : Fin 128 × Time) (pre rest : List (Fin 128 ×
    Time)) (v u : State) (d : Fin 8), v = { s with router := { s.router with fired := rest } } ∧ u = v.reach (x.2 + 125) ∧ d
    = u.routeEasel r ∧ s.router.fired = pre ++ x :: rest ∧ (∀ y ∈ pre, y.1 ≠ r) ∧ x.1 = r ∧ pre = [] ∧ s.get (R.ROUTE_ACTION
    r) = 1 ∧ u.get (R.ROUTE_ACTION r) = 1 :=
  ⟨{ (((wGroup.set (R.ROUTE_ACTION 4) 1).set (R.ROUTE_SRC 4) 7).set (R.ROUTE_ARG 4) 4) with router := { fired := [(4, 0)] } }, 4, (4, 0), [], [], _, _, _, rfl, rfl, rfl, rfl, (fun _ h => nomatch h), rfl, rfl, by decide, by decide⟩

theorem met_FiredRoutesActAtTheNextTick_3 : ∃ (s : State) (r : Fin 128) (x : Fin 128 × Time) (pre rest : List (Fin 128 ×
    Time)) (v u : State) (d : Fin 8), v = { s with router := { s.router with fired := rest } } ∧ u = v.reach (x.2 + 125) ∧ d
    = u.routeEasel r ∧ s.router.fired = pre ++ x :: rest ∧ (∀ y ∈ pre, y.1 ≠ r) ∧ x.1 = r ∧ pre = [] ∧ s.get (R.ROUTE_ACTION
    r) = 2 ∧ u.get (R.ROUTE_ACTION r) = 2 :=
  ⟨{ (((wGroup.set (R.ROUTE_ACTION 4) 2).set (R.ROUTE_SRC 4) 7).set (R.ROUTE_ARG 4) 4) with router := { fired := [(4, 0)] } }, 4, (4, 0), [], [], _, _, _, rfl, rfl, rfl, rfl, (fun _ h => nomatch h), rfl, rfl, by decide, by decide⟩

theorem met_FiredRoutesActAtTheNextTick_4 : ∃ (s : State) (r : Fin 128) (x : Fin 128 × Time) (pre rest : List (Fin 128 ×
    Time)) (v u : State) (d : Fin 8), v = { s with router := { s.router with fired := rest } } ∧ u = v.reach (x.2 + 125) ∧ d
    = u.routeEasel r ∧ s.router.fired = pre ++ x :: rest ∧ (∀ y ∈ pre, y.1 ≠ r) ∧ x.1 = r ∧ pre = [] ∧ s.get (R.ROUTE_ACTION
    r) = 3 ∧ u.get (R.ROUTE_ACTION r) = 3 :=
  ⟨{ (((wGroup.set (R.ROUTE_ACTION 4) 3).set (R.ROUTE_SRC 4) 7).set (R.ROUTE_ARG 4) 4) with router := { fired := [(4, 0)] } }, 4, (4, 0), [], [], _, _, _, rfl, rfl, rfl, rfl, (fun _ h => nomatch h), rfl, rfl, by decide, by decide⟩

theorem met_FiredRoutesActAtTheNextTick_5 : ∃ (s : State) (r : Fin 128) (x : Fin 128 × Time) (pre rest : List (Fin 128 ×
    Time)) (v u : State) (d : Fin 8), ∃ (p : Fin 8) (q : Fin 4), v = { s with router := { s.router with fired := rest } } ∧
    u = v.reach (x.2 + 125) ∧ d = u.routeEasel r ∧ s.router.fired = pre ++ x :: rest ∧ (∀ y ∈ pre, y.1 ≠ r) ∧ x.1 = r ∧ pre
    = [] ∧ s.get (R.ROUTE_ACTION r) = 4 ∧ u.get (R.ROUTE_ACTION r) = 4 ∧ p.val = u.get (R.ROUTE_ARG r) / 4 % 8 ∧ q.val =
    u.get (R.ROUTE_ARG r) % 4 :=
  ⟨{ (((wGroup.set (R.ROUTE_ACTION 4) 4).set (R.ROUTE_SRC 4) 7).set (R.ROUTE_ARG 4) 4) with router := { fired := [(4, 0)] } }, 4, (4, 0), [], [], _, _, _, 1, 0, rfl, rfl, rfl, rfl, (fun _ h => nomatch h), rfl, rfl, by decide, by decide, by decide, by decide⟩

theorem met_FiredRoutesActAtTheNextTick_6 : ∃ (s : State) (r : Fin 128) (x : Fin 128 × Time) (pre rest : List (Fin 128 ×
    Time)) (v u : State) (d : Fin 8), v = { s with router := { s.router with fired := rest } } ∧ u = v.reach (x.2 + 125) ∧ d
    = u.routeEasel r ∧ s.router.fired = pre ++ x :: rest ∧ (∀ y ∈ pre, y.1 ≠ r) ∧ x.1 = r ∧ pre = [] ∧ s.get (R.ROUTE_ACTION
    r) = 5 ∧ u.get (R.ROUTE_ACTION r) = 5 :=
  ⟨{ (((wGroup.set (R.ROUTE_ACTION 4) 5).set (R.ROUTE_SRC 4) 7).set (R.ROUTE_ARG 4) 4) with router := { fired := [(4, 0)] } }, 4, (4, 0), [], [], _, _, _, rfl, rfl, rfl, rfl, (fun _ h => nomatch h), rfl, rfl, by decide, by decide⟩

theorem met_ConversionsStartAndLandInTheirOrder_1 : ∃ (s : State), ∃ (p : Fin 8) (q : Fin 4), s.nextTrigger p q = none :=
  ⟨State.reset, 0, 0, by decide⟩

theorem met_ConversionsStartAndLandInTheirOrder_2 : ∃ (s : State), ∃ (p : Fin 8) (q : Fin 4) (base : Nat) (v u : State), v =
    s.reachAge (base + s.get (R.ADC_TOFS_OFFSET p q)) ∧ u = v.triggerTaken p q base ∧ s.nextTrigger p q = some base :=
  ⟨wAdc, 1, 0, 5, _, _, rfl, rfl, by decide⟩

theorem met_ConversionsStartAndLandInTheirOrder_3 : ∃ (s : State), ∃ (p : Fin 8) (c : Fin 2), (s.conv p c).pend = [] :=
  ⟨State.reset, 0, 0, by decide⟩

theorem met_ConversionsStartAndLandInTheirOrder_4 : ∃ (s : State), ∃ (p : Fin 8) (c : Fin 2) (x : AdcPend) (rest : List
    AdcPend) (u : State), (s.conv p c).pend = x :: rest ∧ (∀ y tm, (s.conv p c).run = some (y, tm) → u = s.reachAge tm) ∧
    ((s.conv p c).run = none → u = s) :=
  ⟨wLanding, 1, 0, ⟨1, 0, false, false⟩, [], _, rfl, fun _ _ h => by cases h; rfl, fun h => nomatch h⟩

theorem met_ConversionsStartAndLandInTheirOrder_5 : ∃ (s : State), ∃ (p : Fin 8) (c : Fin 2) (codes : List (BitVec 14)),
    ((s.conv p c).lands = [] ∨ (∃ x rest, (s.conv p c).lands = x :: rest ∧ (codes.length ≠ (R.STEP_AVG_M1 0 0).read x.cfg +
    1 ∨ s.landTurn (s.pairOwner p) (s.coarseAt (x.last + 1500)) (2 * p.val + c.val) = false))) :=
  ⟨State.reset, 0, 0, [], Or.inl rfl⟩

theorem met_ConversionsStartAndLandInTheirOrder_6 : ∃ (s : State), ∃ (p : Fin 8) (c : Fin 2) (codes : List (BitVec 14)) (x :
    AdcLand) (rest : List AdcLand) (u : State) (val : Fin 2 → BitVec 14 → Int), u = s.reachAge (s.coarseAt (x.last + 1500))
    ∧ (s.conv p c).lands = x :: rest ∧ codes.length = (R.STEP_AVG_M1 0 0).read x.cfg + 1 ∧ s.landTurn (s.pairOwner p)
    (s.coarseAt (x.last + 1500)) (2 * p.val + c.val) = true ∧ (∀ k, val 0 k = roundDiv ((4 * (k.toNat : Int) - (BitVec.ofNat
    16 (u.get (R.CAL_A_OFS p))).toInt) * u.get (R.CAL_A_GAIN p)) 16384) ∧ (∀ k, val 1 k = roundDiv ((4 * (k.toNat : Int) -
    (BitVec.ofNat 16 (u.get (R.CAL_B_OFS p))).toInt) * u.get (R.CAL_B_GAIN p)) 16384) :=
  ⟨wLanding, 1, 0, [100], wLand, [], _, fun x k => if x = 0 then roundDiv ((4 * (k.toNat : Int) - 0) * 16384) 16384 else roundDiv ((4 * (k.toNat : Int) - 0) * 16384) 16384, rfl, rfl, rfl, rfl, fun _ => rfl, fun _ => rfl⟩

theorem met_ConversionsStartAndLandInTheirOrder_7 : ∃ (s : State), ∃ (p : Fin 16), ((s.link p).landing = [] ∨ (∃ x rest,
    (s.link p).landing = x :: rest ∧ s.landTurn (s.owner (R.OWN_PODCH (podCh p x.ch))) (s.coarseAt (x.at_ + 500)) (16 +
    (podCh p x.ch).val) = false)) :=
  ⟨State.reset, 0, Or.inl rfl⟩

theorem met_ConversionsStartAndLandInTheirOrder_8 : ∃ (s : State), ∃ (p : Fin 16) (x : PodLand) (rest : List PodLand) (u :
    State) (ch : Fin 64), ch = podCh p x.ch ∧ u = s.reachAge (s.coarseAt (x.at_ + 500)) ∧ (s.link p).landing = x :: rest ∧
    s.landTurn (s.owner (R.OWN_PODCH ch)) (s.coarseAt (x.at_ + 500)) (16 + ch.val) = true :=
  ⟨wPodCh.modLink 2 fun y => { y with landing := [⟨1, 5, 0, 9⟩] }, 2, ⟨1, 5, 0, 9⟩, [], _, _, rfl, rfl, by decide⟩

theorem met_ConversionsStartAndLandInTheirOrder_9 : ∃ (s : State), ∃ (p : Fin 8) (a : Agent), s.reachesOwned a (s.pairOwner
    p) = true ∧ s.get (R.ADC_PCTRL_SEQ_EN p) = 0 ∧ s.flag (R.ADC_PCTRL_CAL_BUSY p) = false :=
  ⟨State.reset, 3, .sp, by decide⟩

theorem met_ConversionsStartAndLandInTheirOrder_10 : ∃ (s : State), ∃ (p : Fin 8) (a : Agent), (s.reachesOwned a
    (s.pairOwner p) = false ∨ s.get (R.ADC_PCTRL_SEQ_EN p) ≠ 0 ∨ s.flag (R.ADC_PCTRL_CAL_BUSY p) = true) :=
  ⟨State.reset, 3, .fn 0, by decide⟩

theorem met_ConversionsStartAndLandInTheirOrder_11 : ∃ (s : State), ∃ (p : Fin 8) (x : Option (BitVec 32 × BitVec 32)),
    s.flag (R.ADC_PCTRL_CAL_BUSY p) = false :=
  ⟨State.reset, 3, none, by decide⟩

theorem met_ConversionsStartAndLandInTheirOrder_12 : ∃ (s : State) (p : Fin 8), s.flag (R.ADC_PCTRL_CAL_BUSY p) = true :=
  ⟨(wAdc.setFlag (R.ADC_PCTRL_CAL_BUSY 1) true), 1, by decide⟩

theorem met_PodsKeepTheirOwnState_1 : ∃ (s : State) (p : Fin 16), ∃ (frame : BitVec 40), (s.takesFrame p frame 3 = false ∨ 4
    ≤ frameAddr frame) :=
  ⟨State.reset, 3, mkFrame 3 5 1 9, by decide⟩

theorem met_PodsKeepTheirOwnState_2 : ∃ (s : State) (p : Fin 16), ∃ (frame : BitVec 40), s.takesFrame p frame 4 = false :=
  ⟨State.reset, 3, mkFrame 4 5 0 0, by decide⟩

theorem met_PodsKeepTheirOwnState_3 : ∃ (s : State) (p : Fin 16), ∃ (frame : BitVec 40), s.takesFrame p frame 1 = false :=
  ⟨State.reset, 3, mkFrame 1 5 6 3, by decide⟩

theorem met_PodsKeepTheirOwnState_4 : ∃ (s : State) (p : Fin 16), ∃ (frame : BitVec 40), s.takesFrame p frame 2 = false :=
  ⟨State.reset, 3, mkFrame 2 5 0 0, by decide⟩

theorem met_PodsKeepTheirOwnState_5 : ∃ (s : State) (p : Fin 16), ∃ (frame : BitVec 40), (s.takesFrame p frame 5 = false ∨
    frameAddr frame ≠ 0 ∨ frameData frame ≠ 0) :=
  ⟨State.reset, 3, mkFrame 5 5 0 0, by decide⟩

theorem met_PodsKeepTheirOwnState_6 : ∃ (s : State) (p : Fin 16) (frame : BitVec 40) (c : Fin 4), s.takesFrame p frame 3 =
    true ∧ frameAddr frame = c.val :=
  ⟨wPod, 3, mkFrame 3 5 1 9, 1, by decide⟩

theorem met_PodsKeepTheirOwnState_7 : ∃ (s : State) (p : Fin 16) (frame : BitVec 40), s.takesFrame p frame 4 = true :=
  ⟨wPod, 3, mkFrame 4 5 0 0, by decide⟩

theorem met_PodsKeepTheirOwnState_8 : ∃ (s : State) (p : Fin 16) (frame : BitVec 40), s.takesFrame p frame 1 = true :=
  ⟨wPod, 3, mkFrame 1 5 6 3, by decide⟩

theorem met_PodsKeepTheirOwnState_9 : ∃ (s : State) (p : Fin 16) (frame : BitVec 40) (live : PodLive), s.takesFrame p frame
    2 = true :=
  ⟨wPod, 3, mkFrame 2 5 0 0, ⟨200, false, 0⟩, by decide⟩

theorem met_PodsKeepTheirOwnState_10 : ∃ (s : State) (p : Fin 16) (frame : BitVec 40), s.takesFrame p frame 5 = true ∧
    frameAddr frame = 0 ∧ frameData frame = 0 :=
  ⟨wPod, 3, mkFrame 5 5 0 0, by decide⟩

theorem met_PodsKeepTheirOwnState_11 : ∃ (s : State) (p : Fin 16), ∃ (c : Fin 4) (value : BitVec 24) (overload r : Bool) (u
    : State), (∀ n, (s.pod p).ch[c].next = some n → u = s.reachAge n) ∧ ((s.pod p).ch[c].next = none → u = s) ∧ ((s.pod
    p).ch[c].aligned = none → r = true) ∧ (∀ a, (s.pod p).ch[c].aligned = some a → r = decide (u.age < max a (s.pod
    p).measAt + 1500 * ((s.pod p).chM c - 1))) ∧ ((s.pod p).pg = false ∨ (s.pod p).meas = false ∨ (s.pod p).chOn c = false ∨
    (s.pod p).loadCut = true) :=
  ⟨State.reset, 3, 0, 7, false, true, State.reset, fun _ h => (nomatch h), fun _ => rfl, fun _ => rfl, fun _ h => (nomatch h), by decide⟩

theorem met_PodsKeepTheirOwnState_12 : ∃ (s : State) (p : Fin 16), ∃ (c : Fin 4) (value : BitVec 24) (overload r : Bool) (u
    : State), (∀ n, (s.pod p).ch[c].next = some n → u = s.reachAge n) ∧ ((s.pod p).ch[c].next = none → u = s) ∧ ((s.pod
    p).ch[c].aligned = none → r = true) ∧ (∀ a, (s.pod p).ch[c].aligned = some a → r = decide (u.age < max a (s.pod
    p).measAt + 1500 * ((s.pod p).chM c - 1))) ∧ (s.pod p).pg = true ∧ (s.pod p).meas = true ∧ (s.pod p).chOn c = true ∧
    (s.pod p).loadCut = false :=
  ⟨wPod, 3, 0, 7, false, true, wPod, fun _ h => (nomatch h), fun _ => rfl, fun _ => rfl, fun _ h => (nomatch h), by decide⟩

theorem met_PodsKeepTheirOwnState_13 : ∃ (s : State) (p : Fin 16), ∃ (live : PodLive), ((s.pod p).pg = false ∨ (s.pod
    p).locked = false) :=
  ⟨State.reset, 3, ⟨200, false, 0⟩, by decide⟩

theorem met_PodsKeepTheirOwnState_14 : ∃ (s : State) (p : Fin 16), ∃ (live : PodLive) (at_ : Nat) (x : Pod) (pressing ends :
    Prop), x = s.pod p ∧ at_ = s.gridAt 625 (max s.age x.busyUntil) ∧ (pressing ↔ .status ∈ x.waiting ∧ ∃ d, x.statusDue =
    some d ∧ d + 800000 ≤ at_) ∧ (ends ↔ (x.meas = true → ∀ (c : Fin 4) (n : Nat), x.chOn c = true → x.ch[c].next = some n →
    at_ + 21250 < n ∨ n + x.chPeriod c < at_ + 21250)) ∧ x.pg = true ∧ x.locked = true ∧ pressing :=
  ⟨{ (wPod.modPod 3 fun x => { x with waiting := [.status], statusDue := some 0 }) with age := 900000 }, 3, ⟨200, false, 0⟩, _, _, _, _, rfl, rfl, Iff.rfl, Iff.rfl, by decide, by decide, by decide, 0, rfl, by decide⟩

theorem met_PodsKeepTheirOwnState_15 : ∃ (s : State) (p : Fin 16), ∃ (live : PodLive) (at_ : Nat) (x : Pod) (pressing ends :
    Prop), x = s.pod p ∧ at_ = s.gridAt 625 (max s.age x.busyUntil) ∧ (pressing ↔ .status ∈ x.waiting ∧ ∃ d, x.statusDue =
    some d ∧ d + 800000 ≤ at_) ∧ (ends ↔ (x.meas = true → ∀ (c : Fin 4) (n : Nat), x.chOn c = true → x.ch[c].next = some n →
    at_ + 21250 < n ∨ n + x.chPeriod c < at_ + 21250)) ∧ x.pg = true ∧ x.locked = true ∧ ¬ pressing ∧ 0 < x.alarmWords :=
  ⟨wPod.modPod 3 fun x => { x with alarmWords := 1 }, 3, ⟨200, false, 0⟩, _, _, _, _, rfl, rfl, Iff.rfl, Iff.rfl, by decide, by decide, fun h => absurd h.1 (by decide), by decide⟩

theorem met_PodsKeepTheirOwnState_16 : ∃ (s : State) (p : Fin 16), ∃ (live : PodLive) (at_ : Nat) (x : Pod) (pressing ends :
    Prop), ∃ (c : Fin 4) (w : PodSample), x = s.pod p ∧ at_ = s.gridAt 625 (max s.age x.busyUntil) ∧ (pressing ↔ .status ∈
    x.waiting ∧ ∃ d, x.statusDue = some d ∧ d + 800000 ≤ at_) ∧ (ends ↔ (x.meas = true → ∀ (c : Fin 4) (n : Nat), x.chOn c =
    true → x.ch[c].next = some n → at_ + 21250 < n ∨ n + x.chPeriod c < at_ + 21250)) ∧ x.pg = true ∧ x.locked = true ∧ ¬
    pressing ∧ x.alarmWords = 0 ∧ x.ch[c].waiting = some w ∧ (∀ d : Fin 4, d < c → x.ch[d].waiting = none) :=
  ⟨wPod.modPodCh 3 0 fun c => { c with waiting := some ⟨9, 0, false, false⟩ }, 3, ⟨200, false, 0⟩, _, _, _, _, 0, ⟨9, 0, false, false⟩, rfl, rfl, Iff.rfl, Iff.rfl, by decide, by decide, fun h => absurd h.1 (by decide), by decide⟩

theorem met_PodsKeepTheirOwnState_17 : ∃ (s : State) (p : Fin 16), ∃ (live : PodLive) (at_ : Nat) (x : Pod) (pressing ends :
    Prop), ∃ (w : PodWord) (rest : List PodWord), x = s.pod p ∧ at_ = s.gridAt 625 (max s.age x.busyUntil) ∧ (pressing ↔
    .status ∈ x.waiting ∧ ∃ d, x.statusDue = some d ∧ d + 800000 ≤ at_) ∧ (ends ↔ (x.meas = true → ∀ (c : Fin 4) (n : Nat),
    x.chOn c = true → x.ch[c].next = some n → at_ + 21250 < n ∨ n + x.chPeriod c < at_ + 21250)) ∧ x.pg = true ∧ x.locked =
    true ∧ ¬ pressing ∧ x.alarmWords = 0 ∧ (∀ c : Fin 4, x.ch[c].waiting = none) ∧ x.waiting = w :: rest ∧ ends :=
  ⟨wPod.modPod 3 fun x => { x with meas := false, waiting := [.hello] }, 3, ⟨200, false, 0⟩, _, _, _, _, .hello, [], rfl, rfl, Iff.rfl, Iff.rfl, by decide, by decide, fun h => absurd h.1 (by decide), by decide, by decide, by decide, fun h => absurd h (by decide)⟩

theorem met_PodsKeepTheirOwnState_18 : ∃ (s : State) (p : Fin 16), ∃ (live : PodLive) (at_ : Nat) (x : Pod) (pressing ends :
    Prop), x = s.pod p ∧ at_ = s.gridAt 625 (max s.age x.busyUntil) ∧ (pressing ↔ .status ∈ x.waiting ∧ ∃ d, x.statusDue =
    some d ∧ d + 800000 ≤ at_) ∧ (ends ↔ (x.meas = true → ∀ (c : Fin 4) (n : Nat), x.chOn c = true → x.ch[c].next = some n →
    at_ + 21250 < n ∨ n + x.chPeriod c < at_ + 21250)) ∧ x.pg = true ∧ x.locked = true ∧ ¬ pressing ∧ x.alarmWords = 0 ∧ (∀
    c : Fin 4, x.ch[c].waiting = none) ∧ (x.waiting = [] ∨ ¬ ends) :=
  ⟨wPod, 3, ⟨200, false, 0⟩, _, _, _, _, rfl, rfl, Iff.rfl, Iff.rfl, by decide, by decide, fun h => absurd h.1 (by decide), by decide, by decide, Or.inl rfl⟩

theorem met_PodsKeepTheirOwnState_19 : ∃ (s : State) (p : Fin 16), ((s.pod p).pg = false ∨ (s.pod p).locked = false ∨
    .status ∈ (s.pod p).waiting) :=
  ⟨State.reset, 3, by decide⟩

theorem met_PodsKeepTheirOwnState_20 : ∃ (s : State) (p : Fin 16), (s.pod p).pg = true ∧ (s.pod p).locked = true ∧ .status ∉
    (s.pod p).waiting :=
  ⟨wPod, 3, by decide⟩

theorem met_PodsKeepTheirOwnState_21 : ∃ (s : State) (p : Fin 16) (bits : BitVec 8), (s.pod p).pg = true :=
  ⟨wPod, 3, 0x81, by decide⟩

theorem met_PodsKeepTheirOwnState_22 : ∃ (s : State) (p : Fin 16), (s.pod p).pg = false :=
  ⟨State.reset, 3, by decide⟩

theorem met_PodsKeepTheirOwnState_23 : ∃ (s : State) (p : Fin 16), (s.pod p).meas = true :=
  ⟨wPod, 3, by decide⟩

theorem met_PodsKeepTheirOwnState_24 : ∃ (s : State) (p : Fin 16), (s.pod p).meas = false :=
  ⟨State.reset, 3, by decide⟩

theorem met_PodsKeepTheirOwnState_25 : ∃ (s : State) (p : Fin 16), (s.pod p).dark ≠ none :=
  ⟨wDarkPod, 3, by decide⟩

theorem met_PodsKeepTheirOwnState_26 : ∃ (s : State) (p : Fin 16), ∃ (u : State), u = (if s.level p = 0 then s.reachAge
    ((s.link p).carrierAt + 2500) else s) ∧ (s.pod p).dark = none :=
  ⟨wPod, 3, _, rfl, by decide⟩

theorem met_PodsKeepTheirOwnState_27 : ∃ (s : State) (p : Fin 16), ∃ (live : PodLive), ((s.pod p).dark = none ∨ (s.pod p).pg
    = false ∨ (s.pod p).acted = true) :=
  ⟨wPod, 3, ⟨200, false, 0⟩, by decide⟩

theorem met_PodsKeepTheirOwnState_28 : ∃ (s : State) (p : Fin 16) (live : PodLive) (at_ : Nat), (s.pod p).dark = some at_ ∧
    (s.pod p).pg = true ∧ (s.pod p).acted = false :=
  ⟨wDarkPod, 3, ⟨200, false, 0⟩, 0, by decide⟩

theorem met_PodsKeepTheirOwnState_29 : ∃ (s : State) (p : Fin 16), (s.level p = 0 ∨ (s.pod p).locked = true) :=
  ⟨State.reset, 3, by decide⟩

theorem met_PodsKeepTheirOwnState_30 : ∃ (s : State) (p : Fin 16), s.level p ≠ 0 ∧ (s.pod p).locked = false :=
  ⟨(wDarkPod.set (R.SL_STATUS_LEVEL 3) 5), 3, by decide⟩

theorem met_PodsKeepTheirOwnState_31 : ∃ (s : State) (p : Fin 16), ((s.pod p).onAlt = false ∨ (s.pod p).locked = false) :=
  ⟨State.reset, 3, by decide⟩

theorem met_PodsKeepTheirOwnState_32 : ∃ (s : State) (p : Fin 16), (s.pod p).onAlt = true ∧ (s.pod p).locked = true :=
  ⟨(wPod.modPod 3 fun x => { x with onAlt := true }), 3, by decide⟩

theorem met_PodsKeepTheirOwnState_33 : ∃ (s : State) (p : Fin 16), (s.pod p).pg = false :=
  ⟨State.reset, 3, by decide⟩

theorem met_PodsKeepTheirOwnState_34 : ∃ (s : State) (p : Fin 16) (bits : BitVec 8), (s.pod p).pg = true :=
  ⟨wPod, 3, 0x81, by decide⟩

theorem met_PodsKeepTheirOwnState_35 : ∃ (s : State) (p : Fin 16), ∃ (live : PodLive), ((s.pod p).dark = none ∨ (s.pod p).pg
    = false ∨ (s.pod p).burstEn = false ∨ (s.pod p).sendAlarms = 0 ∨ canTransmit live = false) :=
  ⟨State.reset, 3, ⟨200, false, 0⟩, by decide⟩

theorem met_PodsKeepTheirOwnState_36 : ∃ (s : State) (p : Fin 16) (live : PodLive) (at_ : Nat), (s.pod p).dark = some at_ ∧
    (s.pod p).pg = true ∧ (s.pod p).burstEn = true ∧ (s.pod p).sendAlarms ≠ 0 ∧ canTransmit live = true :=
  ⟨wDarkPod, 3, ⟨200, false, 0⟩, 0, by decide⟩

theorem met_TheControllerTakesUplinkWords_1 : ∃ (s : State) (p : Fin 16), ∃ (x : BitVec 64), ∃ c ∈ [Instr.sampleWord p x,
    .hello p x, .status p x, .echoRsp p x, .writeAck p x, .readRsp p x, .alarm p x], s.level p = 0 :=
  ⟨State.reset, 5, 0, .hello 5 0, by decide, by decide⟩

theorem met_TheControllerTakesUplinkWords_2 : ∃ (s : State) (p : Fin 16), ∃ (x : BitVec 64), ∃ c ∈ [Instr.sampleWord p x,
    .hello p x, .status p x, .echoRsp p x, .writeAck p x, .readRsp p x, .alarm p x], s.level p ≠ 0 ∧ (chipsOk x = false ∨
    wordOk (chipsBody x) = false) :=
  ⟨wLink, 5, 0, .hello 5 0, by decide, by decide⟩

theorem met_TheControllerTakesUplinkWords_3 : ∃ (s : State) (p : Fin 16), ∃ (x : BitVec 64), ∃ k ∈ [(1, Instr.hello p x),
    (2, .status p x), (3, .readRsp p x), (4, .writeAck p x), (5, .alarm p x), (6, .echoRsp p x)], bodyOk x = true ∧
    controlType (chipsBody x) ≠ k.1 :=
  ⟨wLink, 5, chips (mkControl 1 0xD410 0), (2, .status 5 (chips (mkControl 1 0xD410 0))), by decide, by decide⟩

theorem met_TheControllerTakesUplinkWords_4 : ∃ (s : State) (p : Fin 16), ∃ (x : BitVec 64) (w : BitVec 32) (c : Fin 4) (v :
    State), w = chipsBody x ∧ v = (s.modLink p fun y => { y with lastWord := s.age }) ∧ s.level p ≠ 0 ∧ bodyOk x = true ∧
    w.toNat / 2 ^ 24 % 4 = c.val :=
  ⟨wUp, 5, chips (mkWord 9), _, 0, _, rfl, rfl, by decide⟩

theorem met_TheControllerTakesUplinkWords_5 : ∃ (s : State) (p : Fin 16), ∃ (x : BitVec 64), s.level p ≠ 0 ∧ bodyOk x = true
    ∧ controlType (chipsBody x) = 1 :=
  ⟨wLink, 5, chips (mkControl 1 0xD410 0), by decide⟩

theorem met_TheControllerTakesUplinkWords_6 : ∃ (s : State) (p : Fin 16), ∃ (x : BitVec 64) (d : Nat), d = controlData
    (chipsBody x) ∧ s.level p ≠ 0 ∧ bodyOk x = true ∧ controlType (chipsBody x) = 2 :=
  ⟨wLink, 5, chips (mkControl 2 0x2164 0), _, rfl, by decide⟩

theorem met_TheControllerTakesUplinkWords_7 : ∃ (s : State) (p : Fin 16), ∃ (x : BitVec 64) (w : BitVec 32), w = chipsBody x
    ∧ s.level p ≠ 0 ∧ bodyOk x = true ∧ controlType w = 6 :=
  ⟨wLink, 5, chips (mkControl 6 0 0), _, rfl, by decide⟩

theorem met_TheControllerTakesUplinkWords_8 : ∃ (s : State) (p : Fin 16), ∃ (x : BitVec 64) (w : BitVec 32), w = chipsBody x
    ∧ s.level p ≠ 0 ∧ bodyOk x = true ∧ controlType w = 4 :=
  ⟨wAcc, 5, chips (mkControl 4 0 3), _, rfl, by decide⟩

theorem met_TheControllerTakesUplinkWords_9 : ∃ (s : State) (p : Fin 16), ∃ (x : BitVec 64) (w : BitVec 32), w = chipsBody x
    ∧ s.level p ≠ 0 ∧ bodyOk x = true ∧ controlType w = 3 :=
  ⟨wAcc, 5, chips (mkControl 3 7 3), _, rfl, by decide⟩

theorem met_TheControllerTakesUplinkWords_10 : ∃ (s : State) (p : Fin 16), ∃ (x : BitVec 64), s.level p ≠ 0 ∧ bodyOk x =
    true ∧ controlType (chipsBody x) = 5 :=
  ⟨wLink, 5, chips (mkControl 5 0x81 0), by decide⟩

theorem met_TheControllerTakesUplinkWords_11 : ∃ (s : State) (p : Fin 16), ∃ (b : BitVec 48), (s.flag (R.SL_CTRL_EN p) =
    false ∨ s.level p ≠ 0 ∨ b.toNat % 65536 ≠ 0xACFF) :=
  ⟨State.reset, 5, 0, by decide⟩

theorem met_TheControllerTakesUplinkWords_12 : ∃ (s : State) (p : Fin 16) (body : BitVec 32), s.flag (R.SL_CTRL_EN p) = true
    ∧ s.level p = 0 :=
  ⟨(State.reset.setFlag (R.SL_CTRL_EN 5) true), 5, mkControl 5 0x81 0, by decide⟩

theorem met_LinkControlFollowsWritesAndTimeouts_1 : ∃ (s : State) (p : Fin 16) (a : Agent) (on : Bool), s.mayEnable a 4
    (R.SL_CTRL_EN p) on = true :=
  ⟨State.reset, 5, .f0, true, by decide⟩

theorem met_LinkControlFollowsWritesAndTimeouts_2 : ∃ (s : State) (p : Fin 16) (a : Agent) (on : Bool), s.mayEnable a 4
    (R.SL_CTRL_EN p) on = false :=
  ⟨State.reset, 5, .fn 0, true, by decide⟩

theorem met_LinkControlFollowsWritesAndTimeouts_3 : ∃ (s : State) (p : Fin 16) (a : Agent), s.reaches a = true ∧ (s.slState
    p = slUp ∨ s.slState p = slRealign) :=
  ⟨wUp, 5, .f0, by decide⟩

theorem met_LinkControlFollowsWritesAndTimeouts_4 : ∃ (s : State) (p : Fin 16), ∃ (a : Agent), (s.reaches a = false ∨
    (s.slState p ≠ slUp ∧ s.slState p ≠ slRealign)) :=
  ⟨State.reset, 5, .fn 0, by decide⟩

theorem met_LinkControlFollowsWritesAndTimeouts_5 : ∃ (s : State) (p : Fin 16), ∃ (u : State), u = s.reachAge ((s.link
    p).carrierAt + 125000000) ∧ (s.slState p ≠ slCharge ∨ s.level p = 0) :=
  ⟨State.reset, 5, _, rfl, by decide⟩

theorem met_LinkControlFollowsWritesAndTimeouts_6 : ∃ (s : State) (p : Fin 16), ∃ (u : State), u = s.reachAge ((s.link
    p).carrierAt + 125000000) ∧ s.slState p = slCharge ∧ s.level p ≠ 0 :=
  ⟨wCharge, 5, _, rfl, by decide⟩

theorem met_LinkControlFollowsWritesAndTimeouts_7 : ∃ (s : State) (p : Fin 16), ∃ (u : State), u = s.reachAge ((s.link
    p).carrierAt + 12500000) ∧ (s.slState p ≠ slCharge ∨ s.level p ≠ 0) :=
  ⟨State.reset, 5, _, rfl, by decide⟩

theorem met_LinkControlFollowsWritesAndTimeouts_8 : ∃ (s : State) (p : Fin 16), ∃ (u : State), u = s.reachAge ((s.link
    p).carrierAt + 12500000) ∧ s.slState p = slCharge ∧ s.level p = 0 :=
  ⟨State.reset.set (R.SL_STATUS_STATE 5) slCharge, 5, _, rfl, by decide⟩

theorem met_LinkControlFollowsWritesAndTimeouts_9 : ∃ (s : State) (p : Fin 16), ∃ (u : State), u = s.reachAge ((s.link
    p).lastWord + 2000000) ∧ s.slState p ≠ slUp ∧ s.slState p ≠ slRealign :=
  ⟨State.reset, 5, _, rfl, by decide⟩

theorem met_LinkControlFollowsWritesAndTimeouts_10 : ∃ (s : State) (p : Fin 16), ∃ (u : State), u = s.reachAge ((s.link
    p).lastWord + 2000000) ∧ (s.slState p = slUp ∨ s.slState p = slRealign) :=
  ⟨wUp, 5, _, rfl, by decide⟩

theorem met_LinkControlFollowsWritesAndTimeouts_11 : ∃ (s : State) (p : Fin 16) (q : BitVec 4) (at_ : Nat), (s.link p).acc =
    some (q, at_) :=
  ⟨wAcc, 5, 3, 0, by decide⟩

theorem met_LinkControlFollowsWritesAndTimeouts_12 : ∃ (s : State) (p : Fin 16), ∃ (u : State), u = s.reachAge ((s.link
    p).stepAt + (s.link p).stepLimit) ∧ (s.link p).acc = none ∧ s.slState p ≠ slTrain :=
  ⟨State.reset, 5, _, rfl, by decide⟩

theorem met_LinkControlFollowsWritesAndTimeouts_13 : ∃ (s : State) (p : Fin 16), ∃ (u : State), u = s.reachAge ((s.link
    p).stepAt + (s.link p).stepLimit) ∧ (s.link p).acc = none ∧ s.slState p = slTrain :=
  ⟨wLink, 5, _, rfl, by decide⟩

theorem met_LinkControlFollowsWritesAndTimeouts_14 : ∃ (s : State) (p : Fin 16), ∃ (d : Nat), d = 125 - s.fine + 125 *
    (s.get (R.SL_ENERGY_REMAIN p) / s.level p) ∧ (s.level p = 0 ∨ 128000 - s.time.toNat % 128000 ≤ d) :=
  ⟨State.reset, 5, _, rfl, by decide⟩

theorem met_LinkControlFollowsWritesAndTimeouts_15 : ∃ (s : State) (p : Fin 16), ∃ (d : Nat), d = 125 - s.fine + 125 *
    (s.get (R.SL_ENERGY_REMAIN p) / s.level p) ∧ s.unpredRegs = [] ∧ s.sup.inReset = false ∧ s.fine < 125 ∧ s.level p ≠ 0 ∧
    d < 128000 - s.time.toNat % 128000 :=
  ⟨wCharge.set (R.SL_ENERGY_REMAIN 5) 700, 5, _, rfl, by decide⟩

theorem met_LinkControlFollowsWritesAndTimeouts_16 : ∃ (s : State) (p : Fin 16), (s.time.toNat % 128000 = 0 ∨ s.sup.inReset
    = true) :=
  ⟨State.reset, 5, by decide⟩

theorem met_LinkControlFollowsWritesAndTimeouts_17 : ∃ (s : State) (p : Fin 16), s.unpredRegs = [] ∧ s.sup.inReset = false ∧
    s.fine = s.time.toNat % 125 ∧ s.time.toNat % 128000 ≠ 0 ∧ s.time.toNat + 128000 < 2 ^ 48 :=
  ⟨{ (State.reset.set (R.SL_STATUS_STATE 5) slGap) with time := 1, fine := 1 }, 5, by decide⟩

theorem met_LinkControlFollowsWritesAndTimeouts_18 : ∃ (s : State) (p : Fin 16) (a : Agent) (addr : BitVec 8) (data : BitVec
    16), s.reaches a = true ∧ s.flag (R.SL_ACC_BUSY p) = false :=
  ⟨wUp, 5, .f0, 5, 3, by decide⟩

theorem met_LinkControlFollowsWritesAndTimeouts_19 : ∃ (s : State) (p : Fin 16) (a : Agent) (addr : BitVec 8) (data : BitVec
    16), s.reaches a = true ∧ s.flag (R.SL_ACC_BUSY p) = false :=
  ⟨wUp, 5, .f0, 5, 3, by decide⟩

theorem met_LinkControlFollowsWritesAndTimeouts_20 : ∃ (s : State) (p : Fin 16), ∃ (a : Agent), (s.reaches a = false ∨
    s.flag (R.SL_ACC_BUSY p) = true) :=
  ⟨State.reset, 5, .fn 0, by decide⟩

theorem met_LinkControlFollowsWritesAndTimeouts_21 : ∃ (s : State) (p : Fin 16), ∃ (a : Agent), (s.reaches a = false ∨
    s.flag (R.SL_ACC_BUSY p) = true) :=
  ⟨State.reset, 5, .fn 0, by decide⟩

theorem met_TheWheelChangesStateByItsTable_1 : ∃ (s : State) (a : Agent), s.mayEnable a 6 R.WHL_CTRL_EN true = true ∧ s.flag
    R.WHL_CTRL_EN = false :=
  ⟨State.reset, .f0, by decide⟩

theorem met_TheWheelChangesStateByItsTable_2 : ∃ (s : State) (a : Agent), s.mayEnable a 6 R.WHL_CTRL_EN false = true ∧
    s.flag R.WHL_CTRL_EN = true :=
  ⟨(State.reset.setFlag R.WHL_CTRL_EN true), .sp, by decide⟩

theorem met_TheWheelChangesStateByItsTable_3 : ∃ (s : State) (a : Agent) (on : Bool), (on = s.flag R.WHL_CTRL_EN ∨
    s.mayEnable a 6 R.WHL_CTRL_EN on = false) :=
  ⟨State.reset, .f0, false, by decide⟩

theorem met_TheWheelChangesStateByItsTable_4 : ∃ (s : State), ∃ (u : State) (v : Int), u = s.afterCommit s.ownerWheel.toList
    ∧ v = u.get R.WHL_SLEW_SLEW_MAX * 65536 :=
  ⟨State.reset, _, _, rfl, rfl⟩

theorem met_TheWheelChangesStateByItsTable_5 : ∃ (s : State), (s.whl ≠ whlCoast ∨ s.reachAdvance (s.wheel.entryAdv + 2 * 2 ^
    40) = none) :=
  ⟨State.reset, by decide⟩

theorem met_TheWheelChangesStateByItsTable_6 : ∃ (s : State) (u : State), s.whl = whlCoast ∧ s.reachAdvance
    (s.wheel.entryAdv + 2 * 2 ^ 40) = some u :=
  ⟨{ (State.reset.set R.WHL_STATUS_STATE whlCoast |>.set R.WHL_FREQ_FREQ 549755) with wheel := { State.reset.wheel with adv := 2 ^ 42 } }, { (State.reset.set R.WHL_STATUS_STATE whlCoast |>.set R.WHL_FREQ_FREQ 549755) with wheel := { State.reset.wheel with adv := 2 ^ 42 } }, by decide⟩

theorem met_TheWheelChangesStateByItsTable_7 : ∃ (s : State), (s.whl ≠ whlLimp ∨ s.reachAdvance (s.wheel.validAdv + 2 ^ 40)
    = none) :=
  ⟨State.reset, by decide⟩

theorem met_TheWheelChangesStateByItsTable_8 : ∃ (s : State) (u : State), s.whl = whlLimp ∧ s.reachAdvance (s.wheel.validAdv
    + 2 ^ 40) = some u :=
  ⟨{ (State.reset.set R.WHL_STATUS_STATE whlLimp |>.set R.WHL_FREQ_FREQ 549755) with wheel := { State.reset.wheel with adv := 2 ^ 42 } }, { (State.reset.set R.WHL_STATUS_STATE whlLimp |>.set R.WHL_FREQ_FREQ 549755) with wheel := { State.reset.wheel with adv := 2 ^ 42 } }, by decide⟩

theorem met_TheWheelChangesStateByItsTable_9 : ∃ (s : State), ((s.whl ≠ whlLimpBlend ∧ s.whl ≠ whlPriBlend) ∨ s.reachAdvance
    (s.wheel.blendAdv + (s.wheel.blendK + 1) * 2 ^ 34) = none) :=
  ⟨State.reset, by decide⟩

theorem met_TheWheelChangesStateByItsTable_10 : ∃ (s : State) (u : State), (s.whl = whlLimpBlend ∨ s.whl = whlPriBlend) ∧
    s.reachAdvance (s.wheel.blendAdv + (s.wheel.blendK + 1) * 2 ^ 34) = some u :=
  ⟨{ (State.reset.set R.WHL_STATUS_STATE whlPriBlend |>.set R.WHL_FREQ_FREQ 549755) with wheel := { State.reset.wheel with adv := 2 ^ 42 } }, { (State.reset.set R.WHL_STATUS_STATE whlPriBlend |>.set R.WHL_FREQ_FREQ 549755) with wheel := { State.reset.wheel with adv := 2 ^ 42 } }, by decide⟩

theorem met_TheWheelChangesStateByItsTable_11 : ∃ (s : State), ((s.whl ≠ whlLimp ∧ s.whl ≠ whlFail) ∨ s.wheel.qualGood =
    false ∨ s.reachAdvance (s.wheel.qualAdv + 8 * 2 ^ 40) = none ∨ (∃ u, s.reachAdvance (s.wheel.qualAdv + 8 * 2 ^ 40) =
    some u ∧ u.sampleDue = true)) :=
  ⟨State.reset, by decide⟩

theorem met_TheWheelChangesStateByItsTable_12 : ∃ (s : State), ∃ (u : State), (s.whl = whlLimp ∨ s.whl = whlFail) ∧
    s.wheel.qualGood = true ∧ s.reachAdvance (s.wheel.qualAdv + 8 * 2 ^ 40) = some u ∧ u.sampleDue = false :=
  ⟨{ (State.reset.set R.WHL_STATUS_STATE whlLimp) with wheel := { State.reset.wheel with qualGood := true, adv := 2 ^ 43 } }, { (State.reset.set R.WHL_STATUS_STATE whlLimp) with wheel := { State.reset.wheel with qualGood := true, adv := 2 ^ 43 } }, by decide⟩

theorem met_TheWheelChangesStateByItsTable_13 : ∃ (s : State), s.wheel.seen = [] :=
  ⟨State.reset, by decide⟩

theorem met_TheWheelChangesStateByItsTable_14 : ∃ (s : State), ∃ (rising : Bool) (at_ v : Time) (rest : List (Bool × Time))
    (w : Wheel), v = at_ - BitVec.ofNat 48 (s.get R.WHL_LIMP2_LIMP_DLY) ∧ w = { s.wheel with seen := rest } ∧ s.wheel.seen =
    (rising, at_) :: rest :=
  ⟨State.reset.modWheel fun w => { w with seen := [(true, 500)] }, true, 500, _, [], _, rfl, rfl, by decide⟩

theorem met_TheWheelChangesStateByItsTable_15 : ∃ (s : State), ∃ (k : Fin 40), s.armAt k = none :=
  ⟨State.reset, 3, by decide⟩

theorem met_TheWheelChangesStateByItsTable_16 : ∃ (s : State), ∃ (k : Fin 40) (at_ d : Nat) (ahead : Int) (u : State), u =
    s.reachAge at_ ∧ d = (u.eventAngle k + 2 ^ 32 - u.angleAt at_) % 2 ^ 32 ∧ ahead = ((d * 32000 + u.freq - 1) / u.freq :
    Nat) + u.eventOffset k ∧ s.armAt k = some at_ :=
  ⟨(State.reset.set (R.WHL_ECTL_MODE 2) 1 |>.set (R.WHL_EANG_ANGLE 2) 100).set R.WHL_STATUS_STATE whlLocked |>.set R.WHL_FREQ_FREQ 549755, 2, 0, _, _, _, rfl, rfl, rfl, by decide⟩

theorem met_TheWheelChangesStateByItsTable_17 : ∃ (s : State), ∃ (k : Fin 40), s.wheel.slots[k].armed = none :=
  ⟨State.reset, 3, by decide⟩

theorem met_TheWheelChangesStateByItsTable_18 : ∃ (s : State), ∃ (k : Fin 40) (at_ : Time) (late : Bool) (v u : State), v =
    s.reach at_ ∧ u = (v.modWheel fun w => { w with slots := upd w.slots k fun x => { x with armed := none } }) ∧
    s.wheel.slots[k].armed = some (at_, late) :=
  ⟨{ (State.reset.set R.WHL_STATUS_STATE whlLocked |>.set R.WHL_FREQ_FREQ 549755) with wheel := { State.reset.wheel with slots := upd State.reset.wheel.slots 2 fun x => { x with armed := some (9, false) } } }, 2, 9, false, _, _, rfl, rfl, by decide⟩

theorem met_TheGridUnitEvaluatesEachTick_1 : ∃ (s : State), s.sup.inReset = true :=
  ⟨{ sup := { inReset := true } }, by decide⟩

theorem met_TheGridUnitEvaluatesEachTick_2 : ∃ (s : State), ∃ (u : State), u = (if s.grid.evalAt = some s.age then s.elapse
    1 else s).reachMultiple 1250000 ∧ s.sup.inReset = false :=
  ⟨State.reset, _, rfl, by decide⟩

theorem met_TheGridUnitEvaluatesEachTick_3 : ∃ (s : State), ∃ (k : Fin 16), s.asserted k = false :=
  ⟨State.reset, 3, by decide⟩

theorem met_TheGridUnitEvaluatesEachTick_4 : ∃ (s : State) (k : Fin 16), s.asserted k = true :=
  ⟨wTrip, 3, by decide⟩

theorem met_TheGridUnitEvaluatesEachTick_5 : ∃ (s : State), (s.gfuOn = false ∨ s.flag R.GF_CTRL_MEAS_TRIP = false ∨ s.get
    R.GF_MEAS_AGE_NOW ≤ s.get R.GF_MEAS_MEAS_AGE) :=
  ⟨State.reset, by decide⟩

theorem met_TheGridUnitEvaluatesEachTick_6 : ∃ (s : State), s.gfuOn = true ∧ s.flag R.GF_CTRL_MEAS_TRIP = true ∧ s.get
    R.GF_MEAS_MEAS_AGE < s.get R.GF_MEAS_AGE_NOW :=
  ⟨(State.reset.setFlag R.GF_CTRL_EN true |>.setFlag R.GF_CTRL_MEAS_TRIP true |>.set R.GF_MEAS_AGE_NOW 11), by decide⟩

theorem met_TheGridUnitEvaluatesEachTick_7 : ∃ (s : State), ∃ (u : State), u = (if s.grid.evalAt = some s.age then s.elapse
    1 else s).reachMultiple 1250000 ∧ (s.sup.inReset = true ∨ u.mayTap = false) :=
  ⟨{ sup := { inReset := true } }, _, rfl, by decide⟩

theorem met_TheGridUnitEvaluatesEachTick_8 : ∃ (s : State), ∃ (u : State), u = (if s.grid.evalAt = some s.age then s.elapse
    1 else s).reachMultiple 1250000 ∧ s.sup.inReset = false ∧ u.mayTap = true :=
  ⟨wTap, _, rfl, by decide⟩

theorem met_TheGridUnitEvaluatesEachTick_9 : ∃ (s : State), (s.grid.tap = none ∨ (∃ x, s.grid.tap = some x ∧ x.tick <
    s.tapTicks x.phase)) :=
  ⟨State.reset, Or.inl rfl⟩

theorem met_TheGridUnitEvaluatesEachTick_10 : ∃ (s : State), ∃ (x : Tap), s.grid.tap = some x ∧ s.tapTicks x.phase ≤ x.tick
    ∧ x.phase < 3 :=
  ⟨wTap.modGrid fun g => { g with tap := some { phase := 2, tick := 20 } }, { phase := 2, tick := 20 }, by decide⟩

theorem met_TheGridUnitEvaluatesEachTick_11 : ∃ (s : State), ∃ (x : Tap) (v c : Fin 4 → Int) (ok : Prop), s.grid.tap = some
    x ∧ s.tapTicks x.phase ≤ x.tick ∧ 3 ≤ x.phase ∧ (∀ i, v i = roundDiv x.sumV[i] (s.get R.GF_TAP_TAP_LEN_M1 + 1)) ∧ (∀ i,
    c i = roundDiv x.sumI[i] (s.get R.GF_TAP_TAP_LEN_M1 + 1)) ∧ (ok ↔ 256 * s.get R.GF_DI_MIN_DI_MIN ≤ (c 1 - c 2).natAbs ∧
    (v 3 - v 0).natAbs ≤ 256 * s.get R.GF_REST_V_REST_V ∧ (c 3 - c 0).natAbs ≤ 256 * s.get R.GF_REST_I_REST_I) :=
  ⟨wTap.modGrid fun g => { g with tap := some { phase := 3, tick := 20 } }, { phase := 3, tick := 20 }, _, _, _, rfl, by decide, by decide, fun _ => rfl, fun _ => rfl, Iff.rfl⟩

theorem met_TheGridUnitEvaluatesEachTick_12 : ∃ (s : State), ∃ (u : State), u = s.reachAge (s.grid.estAt + s.get
    R.GF_STARVE_STARVE_T * 125000000) ∧ (s.gfuOn = false ∨ s.get R.GF_STATUS_EST ≠ 0) :=
  ⟨State.reset, _, rfl, by decide⟩

theorem met_TheGridUnitEvaluatesEachTick_13 : ∃ (s : State), ∃ (u : State), u = s.reachAge (s.grid.estAt + s.get
    R.GF_STARVE_STARVE_T * 125000000) ∧ s.gfuOn = true ∧ s.get R.GF_STATUS_EST = 0 :=
  ⟨wTap.set R.GF_STATUS_EST 0, _, rfl, by decide⟩

theorem met_TheGridUnitEvaluatesEachTick_14 : ∃ (s : State), ∃ (u : State), u = s.reachAge (s.grid.estAt + s.get
    R.GF_STARVE_STALE_T * 125000000) ∧ (s.gfuOn = false ∨ s.get R.GF_STATUS_EST ≠ 1) :=
  ⟨State.reset, _, rfl, by decide⟩

theorem met_TheGridUnitEvaluatesEachTick_15 : ∃ (s : State), ∃ (u : State), u = s.reachAge (s.grid.estAt + s.get
    R.GF_STARVE_STALE_T * 125000000) ∧ s.gfuOn = true ∧ s.get R.GF_STATUS_EST = 1 :=
  ⟨wTap.set R.GF_STATUS_EST 1, _, rfl, by decide⟩

theorem met_TheGridUnitEvaluatesEachTick_16 : ∃ (s : State), ∃ (k : Fin 8), (s.flag (R.MP_CTRL_EN k) = false ∨ (s.string
    k).tick < s.get (R.MP_CTRL_MSTEP_T k) ∨ (s.string k).tick = 0) :=
  ⟨State.reset, 2, by decide⟩

theorem met_TheGridUnitEvaluatesEachTick_17 : ∃ (s : State), ∃ (k : Fin 8) (x : MpptString) (v c w step tol : Int) (capped :
    Bool) (move : Int → Word), x = s.string k ∧ v = roundDiv x.sumV x.tick ∧ c = roundDiv x.sumI x.tick ∧ w = roundDiv (v *
    c) (2 ^ 32) ∧ capped = x.pcap.any (fun cap => decide ((cap : Int) < w)) ∧ step = 256 * s.get (R.MP_STEP_STEP k) ∧ tol =
    s.get (R.MP_TOL_TOL k) ∧ s.flag (R.MP_CTRL_EN k) = true ∧ s.get (R.MP_CTRL_MSTEP_T k) ≤ x.tick ∧ 0 < x.tick ∧ (∀ d, move
    d = BitVec.ofNat 40 (clampInt (x.vref.toNat + d) (256 * s.get (R.MP_VMIN_VMIN k)) (256 * s.get (R.MP_VMAX_VMAX
    k))).toNat) :=
  ⟨wString, 2, _, _, _, _, _, _, _, _, rfl, rfl, rfl, rfl, rfl, rfl, rfl, by decide, by decide, by decide, fun _ => rfl⟩

theorem met_TheGridUnitEvaluatesEachTick_18 : ∃ (s : State) (a : Agent) (on : Bool), (on = s.flag R.GF_CTRL_EN ∨ s.mayEnable
    a 7 R.GF_CTRL_EN on = false) :=
  ⟨State.reset, .fn 2, true, by decide⟩

theorem met_TheGridUnitEvaluatesEachTick_19 : ∃ (s : State) (a : Agent) (on : Bool), s.mayEnable a 7 R.GF_CTRL_EN on = true
    ∧ on ≠ s.flag R.GF_CTRL_EN :=
  ⟨State.reset, .f0, true, by decide⟩

theorem met_TheGridUnitEvaluatesEachTick_20 : ∃ (s : State) (a : Agent), s.reaches a = true :=
  ⟨State.reset, .f0, by decide⟩

theorem met_TheGridUnitEvaluatesEachTick_21 : ∃ (s : State) (a : Agent), s.reaches a = true :=
  ⟨State.reset, .f0, by decide⟩

theorem met_TheGridUnitEvaluatesEachTick_22 : ∃ (s : State) (a : Agent), s.reaches a = true :=
  ⟨State.reset, .f0, by decide⟩

theorem met_TheGridUnitEvaluatesEachTick_23 : ∃ (s : State), ∃ (a : Agent), s.reaches a = false :=
  ⟨State.reset, .fn 0, by decide⟩

theorem met_TheGridUnitEvaluatesEachTick_24 : ∃ (s : State), ∃ (a : Agent), s.reaches a = false :=
  ⟨State.reset, .fn 0, by decide⟩

theorem met_TheGridUnitEvaluatesEachTick_25 : ∃ (s : State), ∃ (a : Agent), s.reaches a = false :=
  ⟨State.reset, .fn 0, by decide⟩

theorem met_TheGridUnitEvaluatesEachTick_26 : ∃ (s : State), ∃ (k : Fin 8) (a : Agent) (on : Bool), s.mayEnable a 7
    (R.MP_CTRL_EN k) on = false :=
  ⟨State.reset, 2, .fn 0, true, by decide⟩

theorem met_TheGridUnitEvaluatesEachTick_27 : ∃ (s : State) (k : Fin 8) (a : Agent) (on : Bool), s.mayEnable a 7
    (R.MP_CTRL_EN k) on = true :=
  ⟨State.reset, 2, .f0, true, by decide⟩

theorem met_TheMeterPlacesClosesAndCounts_1 : ∃ (s : State), s.mtr.next = none :=
  ⟨State.reset, by decide⟩

theorem met_TheMeterPlacesClosesAndCounts_2 : ∃ (s : State), ∃ (at_ : Nat) (sync : Bool) (target : Nat) (u : State), u =
    s.reachAge at_ ∧ s.mtr.next = some (at_, sync, target) :=
  ⟨wFrame, 9, false, 0, _, rfl, by decide⟩

theorem met_TheMeterPlacesClosesAndCounts_3 : ∃ (s : State), s.mtr.waiting = [] :=
  ⟨State.reset, by decide⟩

theorem met_TheMeterPlacesClosesAndCounts_4 : ∃ (s : State), ∃ (f : MtrFrame) (rest : List MtrFrame) (u : State), u =
    s.reachAge (f.at_ + s.get R.M_WAIT_WAIT) ∧ s.mtr.waiting = f :: rest :=
  ⟨wFrame, { at_ := 0, delta := 5, sync := false, target := 0, angle := 0, fresh := false, last := false, span := none }, [], _, rfl, by decide⟩

theorem met_TheMeterPlacesClosesAndCounts_5 : ∃ (s : State), ∃ (ph : Fin 3), 2 ≤ s.mtrEst ph :=
  ⟨State.reset, 1, by decide⟩

theorem met_TheMeterPlacesClosesAndCounts_6 : ∃ (s : State), ∃ (ph : Fin 3) (st : Nat) (u : State), u = s.reachAge
    (s.mtr.estAt[ph] + s.get (if st = 0 then R.MG_STARVE_M_STARVE_T else R.MG_STARVE_M_STALE_T) * 125000000) ∧ s.mtrEst ph =
    st ∧ st < 2 :=
  ⟨State.reset.set R.MG_STATUS_EST 0, 1, 0, _, rfl, by decide⟩

theorem met_TheMeterPlacesClosesAndCounts_7 : ∃ (s : State) (a : Agent), s.mayEnable a 8 R.MTR_CTRL_EN true = true ∧ s.mtrOn
    = false :=
  ⟨State.reset, .f0, by decide⟩

theorem met_TheMeterPlacesClosesAndCounts_8 : ∃ (s : State) (a : Agent), s.mayEnable a 8 R.MTR_CTRL_EN false = true ∧
    s.mtrOn = true :=
  ⟨wFrame, .f0, by decide⟩

theorem met_TheMeterPlacesClosesAndCounts_9 : ∃ (s : State) (a : Agent) (on : Bool), (on = s.mtrOn ∨ s.mayEnable a 8
    R.MTR_CTRL_EN on = false) :=
  ⟨State.reset, .fn 2, true, by decide⟩

theorem met_TheMeterPlacesClosesAndCounts_10 : ∃ (s : State), ∃ (a : Agent), s.mayWrite a 8 = false :=
  ⟨State.reset, .fn 0, by decide⟩

theorem met_TheMeterPlacesClosesAndCounts_11 : ∃ (s : State) (a : Agent), s.mayWrite a 8 = true :=
  ⟨State.reset, .f0, by decide⟩

theorem met_TheMeterPlacesClosesAndCounts_12 : ∃ (s : State), (s.flag R.PLS_CTRL_EN = false ∨ s.eplsOwned = false ∨
    s.mtr.epls = true ∨ s.get R.PLS_STATUS_PLS_PEND = 0) :=
  ⟨State.reset, by decide⟩

theorem met_TheMeterPlacesClosesAndCounts_13 : ∃ (s : State), ∃ (u : State), (∀ x, s.mtr.eplsAt = some x → u = s.reachAge (x
    + s.get R.PLS_W_PLS_W * 1250000)) ∧ (s.mtr.eplsAt = none → u = s) ∧ s.flag R.PLS_CTRL_EN = true ∧ s.ownerMeter.isSome =
    true ∧ s.sup.inReset = false ∧ s.mtr.epls = false ∧ s.get R.PLS_STATUS_PLS_PEND ≠ 0 :=
  ⟨((State.reset.setFlag R.PLS_CTRL_EN true).set R.PLS_STATUS_PLS_PEND 3).set R.OWN_WHEEL_METER 8, ((State.reset.setFlag R.PLS_CTRL_EN true).set R.PLS_STATUS_PLS_PEND 3).set R.OWN_WHEEL_METER 8, fun _ h => (nomatch h), fun _ => rfl, by decide⟩

theorem met_TheMeterPlacesClosesAndCounts_14 : ∃ (s : State), (s.mtr.epls = false ∨ s.mtr.eplsAt = none) :=
  ⟨State.reset, by decide⟩

theorem met_TheMeterPlacesClosesAndCounts_15 : ∃ (s : State), ∃ (x : Nat) (u : State), u = s.reachAge (x + s.get
    R.PLS_W_PLS_W * 1250000) ∧ s.mtr.epls = true ∧ s.mtr.eplsAt = some x :=
  ⟨State.reset.modMtr fun m => { m with epls := true, eplsAt := some 5 }, 5, _, rfl, by decide⟩

theorem met_TheMeterPlacesClosesAndCounts_16 : ∃ (s : State), ∃ (line neutral : Int) (mv : Nat), (s.flag R.BK_CTRL_EN =
    false ∨ mv < 2200 ∨ 3600 < mv) :=
  ⟨State.reset, 5, 6, 2199, by decide⟩

theorem met_TheMeterPlacesClosesAndCounts_17 : ∃ (s : State), ∃ (line neutral l n : Int) (mv : Nat) (cl cn : Prop), l =
    roundDiv (line * s.get R.BK_GAIN_L_GAIN_L) (2 ^ 24) ∧ n = roundDiv (neutral * s.get R.BK_GAIN_N_GAIN_N) (2 ^ 24) ∧
    s.flag R.BK_CTRL_EN = true ∧ 2200 ≤ mv ∧ mv ≤ 3600 ∧ (cl ↔ s.flag R.MTR_STATUS_LIVE = false ∧ s.get R.BK_CTRL_BK_THR ≤
    l.natAbs) ∧ (cn ↔ s.flag R.MTR_STATUS_LIVE = false ∧ s.get R.BK_CTRL_BK_THR ≤ n.natAbs) :=
  ⟨State.reset.setFlag R.BK_CTRL_EN true, 900, -3, _, _, 2200, _, _, rfl, rfl, by decide, by decide, by decide, Iff.rfl, Iff.rfl⟩

theorem met_TheMeterPlacesClosesAndCounts_18 : ∃ (s : State), ∃ (a : Agent), s.mayWrite a 8 = false :=
  ⟨State.reset, .fn 0, by decide⟩

theorem met_TheMeterPlacesClosesAndCounts_19 : ∃ (s : State) (a : Agent), s.mayWrite a 8 = true :=
  ⟨State.reset, .f0, by decide⟩

theorem met_AuxiliaryDrivesFollowRequestsAndLimits_1 : ∃ (s : State), ∃ (u : State), u = s.afterCommit s.auxOwners :=
  ⟨State.reset, _, rfl⟩

theorem met_AuxiliaryDrivesFollowRequestsAndLimits_2 : ∃ (s : State), ∃ (n : Fin 4) (level : Bool), (s.fan n).pin = level :=
  ⟨State.reset, 1, (State.reset.fan 1).pin, by decide⟩

theorem met_AuxiliaryDrivesFollowRequestsAndLimits_3 : ∃ (s : State), ∃ (n : Fin 4) (level : Bool), (s.fan n).pin ≠ level :=
  ⟨State.reset, 1, !(State.reset.fan 1).pin, by decide⟩

theorem met_AuxiliaryDrivesFollowRequestsAndLimits_4 : ∃ (s : State), ∃ (n : Fin 4) (u : State), u = s.reachAge ((s.fan
    n).pinAt + 124875) ∧ (s.fan n).pin = false ∧ (s.fan n).level = true ∧ s.sup.inReset = false ∧ s.age < (s.fan n).pinAt +
    124875 ∧ u.fine = 0 :=
  ⟨{ State.reset with aux := { State.reset.aux with fans := upd State.reset.aux.fans 0 fun x => { x with pin := false, level := true, pinAt := 0 } }, age := 124750 }, 0, _, rfl, by decide⟩

theorem met_AuxiliaryDrivesFollowRequestsAndLimits_6 : ∃ (s : State), ∃ (n : Fin 4) (t : State) (edges : List Nat), t =
    s.fanEdge n ∧ edges = (s.age :: (s.fan n).edges).take 4 :=
  ⟨wFans, 0, _, _, rfl, rfl⟩

theorem met_AuxiliaryDrivesFollowRequestsAndLimits_7 : ∃ (s : State), ∃ (n : Fin 4) (t : State) (edges : List Nat), ∃ x, t =
    s.fanEdge n ∧ edges = (s.age :: (s.fan n).edges).take 4 ∧ (s.fan n).lastEdge = some x :=
  ⟨{ wFans with aux := { wFans.aux with fans := upd wFans.aux.fans 0 fun x => { x with lastEdge := some 5 } } }, 0, _, _, 5, rfl, rfl, by decide⟩

theorem met_AuxiliaryDrivesFollowRequestsAndLimits_8 : ∃ (s : State), ∃ (n : Fin 4) (t : State) (edges : List Nat), t =
    s.fanEdge n ∧ edges = (s.age :: (s.fan n).edges).take 4 ∧ s.fanState n = fanSpin :=
  ⟨wFans, 0, _, _, rfl, rfl, by decide⟩

theorem met_AuxiliaryDrivesFollowRequestsAndLimits_9 : ∃ (s : State), ∃ (n : Fin 4) (t : State) (edges : List Nat), t =
    s.fanEdge n ∧ edges = (s.age :: (s.fan n).edges).take 4 ∧ s.fanState n = fanTachless :=
  ⟨wFans, 3, _, _, rfl, rfl, by decide⟩

theorem met_AuxiliaryDrivesFollowRequestsAndLimits_10 : ∃ (s : State), ∃ (n : Fin 4) (t : State) (edges : List Nat), t =
    s.fanEdge n ∧ edges = (s.age :: (s.fan n).edges).take 4 ∧ s.fanState n ≠ fanSpin ∧ s.fanState n ≠ fanTachless :=
  ⟨wFans, 2, _, _, rfl, rfl, by decide⟩

theorem met_AuxiliaryDrivesFollowRequestsAndLimits_11 : ∃ (s : State), ∃ (n : Fin 4) (t : State) (edges : List Nat), t =
    s.fanEdge n ∧ edges = (s.age :: (s.fan n).edges).take 4 ∧ t.fanState n = s.fanState n :=
  ⟨wFans, 2, _, _, rfl, rfl, by decide⟩

theorem met_AuxiliaryDrivesFollowRequestsAndLimits_13 : ∃ (s : State), ∃ (n : Fin 4) (code : BitVec 10) (u : State), (∀ x,
    (s.fan n).sampledAt = some x → u = s.reachAge (x + 125000 * max 1 ((s.age - x + 124999) / 125000))) ∧ ((s.fan
    n).sampledAt = none → u = s.reachCoarse) :=
  ⟨State.reset, 1, 100, State.reset.reachCoarse, fun _ h => (nomatch h), fun _ => rfl⟩

theorem met_AuxiliaryDrivesFollowRequestsAndLimits_14 : ∃ (s : State), ∃ (n : Fin 4) (u : State), u = s.reachAge ((s.fan
    n).entry + s.get (R.FAN_TIME_SPIN_T n) * 125000000) ∧ s.fanState n ≠ fanSpin :=
  ⟨wFans, 1, _, rfl, by decide⟩

theorem met_AuxiliaryDrivesFollowRequestsAndLimits_15 : ∃ (s : State), ∃ (n : Fin 4) (u : State), u = s.reachAge ((s.fan
    n).entry + s.get (R.FAN_TIME_SPIN_T n) * 125000000) ∧ s.fanState n = fanSpin :=
  ⟨wFans, 0, _, rfl, by decide⟩

theorem met_AuxiliaryDrivesFollowRequestsAndLimits_16 : ∃ (s : State), ∃ (n : Fin 4) (u : State), u = s.reachAge ((s.fan
    n).lossFrom + s.get (R.FAN_TIME_TLOSS_T n) * 125000000) ∧ s.fanState n ≠ fanRun :=
  ⟨wFans, 0, _, rfl, by decide⟩

theorem met_AuxiliaryDrivesFollowRequestsAndLimits_17 : ∃ (s : State), ∃ (n : Fin 4) (u : State), u = s.reachAge ((s.fan
    n).lossFrom + s.get (R.FAN_TIME_TLOSS_T n) * 125000000) ∧ s.fanState n = fanRun :=
  ⟨wFans, 1, _, rfl, by decide⟩

theorem met_AuxiliaryDrivesFollowRequestsAndLimits_18 : ∃ (s : State), ∃ (n : Fin 4) (u : State), u = s.reachAge ((s.fan
    n).entry + s.get (R.FAN_TIME_PAUSE_T n) * 125000000) ∧ s.fanState n ≠ fanPause :=
  ⟨wFans, 0, _, rfl, by decide⟩

theorem met_AuxiliaryDrivesFollowRequestsAndLimits_19 : ∃ (s : State), ∃ (n : Fin 4) (u : State), u = s.reachAge ((s.fan
    n).entry + s.get (R.FAN_TIME_PAUSE_T n) * 125000000) ∧ s.fanState n = fanPause :=
  ⟨wFans, 2, _, rfl, by decide⟩

theorem met_AuxiliaryDrivesFollowRequestsAndLimits_20 : ∃ (s : State), ∃ (n : Fin 4) (u : State), u = s.reachMultiple (125 *
    s.get (R.FAN_CFG_FPER n)) :=
  ⟨wFans, 0, _, rfl⟩

theorem met_AuxiliaryDrivesFollowRequestsAndLimits_21 : ∃ (s : State), ∃ (n : Fin 8) (u : State), u = s.reachAge ((s.coil
    n).since + s.get (R.COIL_CFG_PULL_T n) * 12500000) ∧ ((s.coil n).energised = false ∨ (s.coil n).lead = true ∨ (s.coil
    n).hold = true) :=
  ⟨State.reset, 5, _, rfl, by decide⟩

theorem met_AuxiliaryDrivesFollowRequestsAndLimits_22 : ∃ (s : State), ∃ (n : Fin 8) (u : State), u = s.reachAge ((s.coil
    n).since + s.get (R.COIL_CFG_PULL_T n) * 12500000) ∧ (s.coil n).energised = true ∧ (s.coil n).lead = false ∧ (s.coil
    n).hold = false :=
  ⟨wCoil, 5, _, rfl, by decide⟩

theorem met_AuxiliaryDrivesFollowRequestsAndLimits_23 : ∃ (s : State), ∃ (n : Fin 8) (u : State), u = s.reachAge ((s.coil
    n).since + s.get R.COIL_PWM_HS_LEAD * 125) ∧ ((s.coil n).energised = false ∨ (s.coil n).lead = false) :=
  ⟨State.reset, 5, _, rfl, by decide⟩

theorem met_AuxiliaryDrivesFollowRequestsAndLimits_24 : ∃ (s : State), ∃ (n : Fin 8) (u : State), u = s.reachAge ((s.coil
    n).since + s.get R.COIL_PWM_HS_LEAD * 125) ∧ (s.coil n).energised = true ∧ (s.coil n).lead = true :=
  ⟨wCoil.modCoil 5 fun x => { x with lead := true }, 5, _, rfl, by decide⟩

theorem met_AuxiliaryDrivesFollowRequestsAndLimits_25 : ∃ (s : State), ∃ (n : Fin 8), (s.coil n).due = none :=
  ⟨State.reset, 5, by decide⟩

theorem met_AuxiliaryDrivesFollowRequestsAndLimits_26 : ∃ (s : State), ∃ (n : Fin 8) (u : State), u = s.reachCoarse ∧
    (s.coil n).due ≠ none :=
  ⟨wCoil, 5, _, rfl, by decide⟩

theorem met_AuxiliaryDrivesFollowRequestsAndLimits_27 : ∃ (s : State), ∃ (n : Fin 8), (s.flag (R.COIL_CFG_FOFF_EN n) = false
    ∨ s.source (s.get (R.COIL_CFG_FOFF_SRC n)) = false) :=
  ⟨State.reset, 5, by decide⟩

theorem met_AuxiliaryDrivesFollowRequestsAndLimits_28 : ∃ (s : State), ∃ (n : Fin 8) (u : State), u = s.reachCoarse ∧ s.flag
    (R.COIL_CFG_FOFF_EN n) = true ∧ s.source (s.get (R.COIL_CFG_FOFF_SRC n)) = true :=
  ⟨((wCoil.setFlag (R.COIL_CFG_FOFF_EN 5) true).set (R.COIL_CFG_FOFF_SRC 5) 0xE4).setFlag R.SAFE_STATUS_SAFE_STATE true, 5, _, rfl, by decide⟩

theorem met_AuxiliaryDrivesFollowRequestsAndLimits_29 : ∃ (s : State), ∃ (k : Fin 2), s.aux.trig[k] = none :=
  ⟨State.reset, 1, by decide⟩

theorem met_AuxiliaryDrivesFollowRequestsAndLimits_30 : ∃ (s : State), ∃ (k : Fin 2) (at_ : Nat) (u : State), u = s.reachAge
    (at_ + 125) ∧ s.aux.trig[k] = some at_ :=
  ⟨{ State.reset with aux := { State.reset.aux with trig := upd State.reset.aux.trig 1 fun _ => some 0 } }, 1, 0, _, rfl, by decide⟩

theorem met_AuxiliaryDrivesFollowRequestsAndLimits_31 : ∃ (s : State), (s.flag R.DSCH_STATUS_ON = false ∨ s.flag
    R.DSCH_STATUS_CUT = true ∨ s.aux.d + s.aux.w ≤ s.get R.DSCH_CAP_DSCH_CAP * joule) :=
  ⟨State.reset, by decide⟩

theorem met_AuxiliaryDrivesFollowRequestsAndLimits_32 : ∃ (s : State), s.unpredRegs = [] ∧ s.sup.inReset = false ∧ s.fine <
    125 ∧ s.flag R.DSCH_STATUS_ON = true ∧ s.flag R.DSCH_STATUS_CUT = false ∧ s.dschWant = s.aux.dschReq ∧ (s.aux.dschReq ||
    s.flag R.DSCH_STATUS_TRIG || s.aux.dschSafe) = true ∧ (s.flag R.DSCH_STATUS_DONE = true ∨ s.flag (R.CMP_STATUS_BELOW
    (s.get R.DSCH_CTRL_DONE_CMP)) = false) ∧ s.get R.DSCH_CAP_DSCH_CAP * joule < s.aux.d + s.aux.w :=
  ⟨{ (wDsch.setFlag R.DSCH_STATUS_TRIG true) with aux := { wDsch.aux with w := 1 } }, by decide⟩

theorem met_AuxiliaryDrivesFollowRequestsAndLimits_33 : ∃ (s : State), (s.flag R.DSCH_STATUS_CUT = false ∨ s.get
    R.DSCH_CAP_DSCH_CAP * joule < 2 * s.aux.d) :=
  ⟨State.reset, by decide⟩

theorem met_AuxiliaryDrivesFollowRequestsAndLimits_34 : ∃ (s : State), s.unpredRegs = [] ∧ s.sup.inReset = false ∧ s.fine <
    125 ∧ s.flag R.DSCH_STATUS_CUT = true ∧ 2 * s.aux.d ≤ s.get R.DSCH_CAP_DSCH_CAP * joule :=
  ⟨(wDsch.setFlag R.DSCH_STATUS_CUT true), by decide⟩

theorem met_AuxiliaryDrivesFollowRequestsAndLimits_35 : ∃ (s : State), ∃ (u : State), u = s.reachAge (s.aux.start + s.get
    R.DSCH_LEAK_DSCH_T * 12500000) ∧ (s.flag R.DSCH_STATUS_ON = false ∨ s.flag R.DSCH_STATUS_DONE = true ∨ s.flag
    R.DSCH_STATUS_FAIL = true) :=
  ⟨State.reset, _, rfl, by decide⟩

theorem met_AuxiliaryDrivesFollowRequestsAndLimits_36 : ∃ (s : State), ∃ (u : State), u = s.reachAge (s.aux.start + s.get
    R.DSCH_LEAK_DSCH_T * 12500000) ∧ s.flag R.DSCH_STATUS_ON = true ∧ s.flag R.DSCH_STATUS_DONE = false ∧ s.flag
    R.DSCH_STATUS_FAIL = false :=
  ⟨wDsch, _, rfl, by decide⟩

theorem met_AuxiliaryDrivesFollowRequestsAndLimits_37 : ∃ (s : State), ∃ (a : Agent), s.reaches a = false :=
  ⟨State.reset, .fn 0, by decide⟩

theorem met_AuxiliaryDrivesFollowRequestsAndLimits_38 : ∃ (s : State) (a : Agent), s.reaches a = true :=
  ⟨wDsch, .sp, by decide⟩

theorem met_SuppliesResetsAndBootKeepTheirRules_1 : ∃ (s : State), ∃ (k : Fin 4), (s.sup.lowFrom[k] = none ∨ s.sup.inReset =
    true) :=
  ⟨State.reset, 1, by decide⟩

theorem met_SuppliesResetsAndBootKeepTheirRules_2 : ∃ (s : State), ∃ (k : Fin 4) (x : Nat) (u : State), u = s.draw.reachAge
    (x + s.onWdosc 2500) ∧ s.sup.lowFrom[k] = some x ∧ s.sup.inReset = false :=
  ⟨{ sup := { lowFrom := upd State.reset.sup.lowFrom 2 fun _ => some 5 } }, 2, 5, _, rfl, by decide⟩

theorem met_SuppliesResetsAndBootKeepTheirRules_3 : ∃ (s : State), ∃ (k : Fin 4), (s.sup.upFrom[k] = none ∨
    s.sup.restored[k] = true) :=
  ⟨State.reset, 1, by decide⟩

theorem met_SuppliesResetsAndBootKeepTheirRules_5 : ∃ (s : State), ∃ (k : Fin 4) (x : Nat) (u : State), u = s.draw.reachAge
    (x + s.onWdosc 250000) ∧ s.sup.upFrom[k] = some x ∧ s.sup.restored[k] = false :=
  ⟨{ sup := { restored := upd State.reset.sup.restored 1 fun _ => false } }, 1, 0, _, rfl, by decide⟩

theorem met_SuppliesResetsAndBootKeepTheirRules_6 : ∃ (s : State), s.RegsInOrder :=
  ⟨State.reset, by decide⟩

theorem met_SuppliesResetsAndBootKeepTheirRules_7 : ∃ (s : State), s.RegsInOrder :=
  ⟨State.reset, by decide⟩

theorem met_SuppliesResetsAndBootKeepTheirRules_8 : ∃ (s : State), (s.sup.inReset = true ∨ s.sup.supplies.toList.contains
    .belowReset = false) :=
  ⟨State.reset, by decide⟩

theorem met_SuppliesResetsAndBootKeepTheirRules_9 : ∃ (s : State), s.RegsInOrder ∧ s.sup.inReset = false ∧
    s.sup.supplies.toList.contains .belowReset = true :=
  ⟨{ State.reset with sup := { State.reset.sup with supplies := upd State.reset.sup.supplies 2 fun _ => .belowReset } }, by decide⟩

theorem met_SuppliesResetsAndBootKeepTheirRules_10 : ∃ (s : State), s.sup.dwdReset = none :=
  ⟨State.reset, by decide⟩

theorem met_SuppliesResetsAndBootKeepTheirRules_11 : ∃ (s : State), ∃ (x : Nat) (u : State), u = s.reachAge (x + 12500000) ∧
    s.sup.dwdReset = some x ∧ u.RegsInOrder :=
  ⟨{ State.reset with age := 12500000, sup := { State.reset.sup with dwdReset := some 0 } }, 0, _, rfl, by decide⟩

theorem met_SuppliesResetsAndBootKeepTheirRules_12 : ∃ (s : State), s.sup.nrst = false :=
  ⟨State.reset, by decide⟩

theorem met_SuppliesResetsAndBootKeepTheirRules_13 : ∃ (s : State), s.sup.nrst = true :=
  ⟨{ State.reset with sup := { nrst := true } }, by decide⟩

theorem met_SuppliesResetsAndBootKeepTheirRules_14 : ∃ (s : State), (s.sup.inReset = false ∨ s.sup.supplies.toList.contains
    .belowReset = true) :=
  ⟨State.reset, by decide⟩

theorem met_SuppliesResetsAndBootKeepTheirRules_15 : ∃ (s : State), ∃ (u : State), s.sup.inReset = true ∧
    s.sup.supplies.toList.contains .belowReset = false ∧ (∀ x, s.sup.releaseFrom = some x → u = s.reachAge (x + 1250000)) ∧
    (s.sup.releaseFrom = none → u = s) :=
  ⟨{ sup := { inReset := true } }, { sup := { inReset := true } }, by decide, by decide, fun _ h => (nomatch h), fun _ => rfl⟩

theorem met_SuppliesResetsAndBootKeepTheirRules_16 : ∃ (s : State), ∃ (fuseErr schedFail : Bool) (bist : BitVec 8),
    (s.sup.inReset = true ∨ s.flag R.BOOT_STATUS_DONE = true) :=
  ⟨{ sup := { inReset := true } }, false, true, 3, by decide⟩

theorem met_SuppliesResetsAndBootKeepTheirRules_17 : ∃ (s : State) (fuseErr schedFail : Bool) (bist : BitVec 8),
    s.sup.inReset = false ∧ s.flag R.BOOT_STATUS_DONE = false :=
  ⟨State.reset, true, false, 3, by decide⟩

theorem met_SuppliesResetsAndBootKeepTheirRules_18 : ∃ (s : State), s.RegsInOrder :=
  ⟨State.reset, by decide⟩

theorem met_SuppliesResetsAndBootKeepTheirRules_19 : ∃ (s : State), ∃ (before load : Nat), s.charging = false :=
  ⟨State.reset, 3000, 2700, by decide⟩

theorem met_SuppliesResetsAndBootKeepTheirRules_20 : ∃ (s : State), ∃ (before load : Nat), ∃ (u : State), u = s.toVbatTest ∧
    s.charging = true :=
  ⟨(State.reset.setFlag R.VBAT_CTRL_CHG_EN true).setFlag R.VBAT_CTRL_TEST_EN true, 3000, 2800, _, rfl, by decide⟩

theorem met_SuppliesResetsAndBootKeepTheirRules_21 : ∃ (s : State), ∃ (c : Fin 3), (s.sup.inReset = true ∨ s.flag
    R.SUP_STATUS_CLKMON = true) :=
  ⟨{ sup := { inReset := true } }, 2, by decide⟩

theorem met_SuppliesResetsAndBootKeepTheirRules_22 : ∃ (s : State) (c : Fin 3), s.sup.inReset = false ∧ s.flag
    R.SUP_STATUS_CLKMON = false :=
  ⟨State.reset, 1, by decide⟩

theorem met_WatchdogsKillKeysAndDebugActAsStated_1 : ∃ (s : State), ∃ (w : Fin 9) (a : Agent), (s.mayWrite a 15 = false ∨
    s.flag (wdEn w) = true) :=
  ⟨State.reset, 3, .fn 3, by decide⟩

theorem met_WatchdogsKillKeysAndDebugActAsStated_2 : ∃ (s : State), ∃ (w : Fin 9) (a : Agent), s.mayWrite a 15 = true ∧
    s.flag (wdEn w) = false :=
  ⟨State.reset, 3, .sp, by decide⟩

theorem met_WatchdogsKillKeysAndDebugActAsStated_3 : ∃ (s : State), ∃ (w : Fin 9) (a : Agent) (key : BitVec 32), (s.wdServes
    w a = false ∨ s.sup.inReset = true ∨ s.flag (wdEn w) = false ∨ s.sup.lateAt[w] = s.wdClockAt w s.age + 1) :=
  ⟨State.reset, 3, .fn 3, 0, by decide⟩

theorem met_WatchdogsKillKeysAndDebugActAsStated_4 : ∃ (s : State), ∃ (w : Fin 9) (a : Agent) (key : BitVec 32), s.wdServes
    w a = true ∧ s.sup.inReset = false ∧ s.flag (wdEn w) = true ∧ s.sup.lateAt[w] ≠ s.wdClockAt w s.age + 1 :=
  ⟨wWd.setFlag (wdClk 3) true, 3, .fn 3, 0x6B3D94C2, by decide⟩

theorem met_WatchdogsKillKeysAndDebugActAsStated_5 : ∃ (s : State), ∃ (w : Fin 9), (s.flag (wdEn w) = false ∨ s.wdHalted w =
    true ∨ s.sup.inReset = true) :=
  ⟨State.reset, 3, by decide⟩

theorem met_WatchdogsKillKeysAndDebugActAsStated_6 : ∃ (s : State) (w : Fin 9), s.flag (wdEn w) = true ∧ s.wdHalted w =
    false ∧ s.sup.inReset = false :=
  ⟨wWd, 3, by decide⟩

theorem met_WatchdogsKillKeysAndDebugActAsStated_7 : ∃ (s : State), s.sup.dwdReset = none :=
  ⟨State.reset, by decide⟩

theorem met_WatchdogsKillKeysAndDebugActAsStated_8 : ∃ (s : State), ∃ (x : Nat) (u : State), u = s.reachAge (x + 12500000) ∧
    s.sup.dwdReset = some x ∧ u.RegsInOrder :=
  ⟨{ State.reset with age := 12500000, sup := { State.reset.sup with dwdReset := some 0 } }, 0, _, rfl, by decide⟩

theorem met_WatchdogsKillKeysAndDebugActAsStated_9 : ∃ (s : State), s.flag R.SAFE_STATUS_KILL_IN = true :=
  ⟨(State.reset.setFlag R.SAFE_STATUS_KILL_IN true), by decide⟩

theorem met_WatchdogsKillKeysAndDebugActAsStated_10 : ∃ (s : State), s.flag R.SAFE_STATUS_KILL_IN = false :=
  ⟨State.reset, by decide⟩

theorem met_WatchdogsKillKeysAndDebugActAsStated_11 : ∃ (s : State), ∃ (a : Agent), (a ≠ .sp ∨ s.sup.inReset = true) :=
  ⟨State.reset, .f0, by decide⟩

theorem met_WatchdogsKillKeysAndDebugActAsStated_16 : ∃ (s : State), ∃ (a : Agent), ∃ g : BitVec 10, s.reaches a = false :=
  ⟨State.reset, .fn 2, 1, by decide⟩

theorem met_WatchdogsKillKeysAndDebugActAsStated_18 : ∃ (s : State), s.sup.inReset = false :=
  ⟨State.reset, by decide⟩

theorem met_WatchdogsKillKeysAndDebugActAsStated_19 : ∃ (s : State), s.sup.inReset = false :=
  ⟨State.reset, by decide⟩

theorem met_WatchdogsKillKeysAndDebugActAsStated_20 : ∃ (s : State) (a : Agent) (k : Fin 4), s.reaches a = true :=
  ⟨State.reset, .f0, 2, by decide⟩

theorem met_WatchdogsKillKeysAndDebugActAsStated_21 : ∃ (s : State) (a : Agent) (k : Fin 4), s.reaches a = true :=
  ⟨State.reset, .f0, 2, by decide⟩

theorem met_WatchdogsKillKeysAndDebugActAsStated_22 : ∃ (s : State), s.fuses.burn = none :=
  ⟨State.reset, by decide⟩

theorem met_WatchdogsKillKeysAndDebugActAsStated_23 : ∃ (s : State) (k : Fin 4) (d : BitVec 256), s.fuses.burn = some (k, d)
    :=
  ⟨{ State.reset with fuses := { burn := some (2, 7) } }, 2, 7, by decide⟩

theorem met_WatchdogsKillKeysAndDebugActAsStated_24 : ∃ (s : State), ∃ (k : Fin 4), s.locked 15 = true :=
  ⟨{ sup := { inReset := false }, lockNext := 0, regs := (State.reset.setFlag R.LOCK_STATUS_SAFETY true).regs }, 2, by decide⟩

theorem met_WatchdogsKillKeysAndDebugActAsStated_25 : ∃ (s : State) (k : Fin 4), s.sup.inReset = false ∧ s.locked 15 = false
    :=
  ⟨State.reset, 2, by decide⟩

theorem met_WatchdogsKillKeysAndDebugActAsStated_26 : ∃ (s : State), ∃ on : Bool, s.fuses.dbgLock = true :=
  ⟨{ fuses := { dbgLock := true } }, true, by decide⟩

theorem met_WatchdogsKillKeysAndDebugActAsStated_28 : ∃ (s : State), s.sup.inReset = false ∧ s.fuses.dbgLock = false :=
  ⟨State.reset, by decide⟩

theorem met_WatchdogsKillKeysAndDebugActAsStated_29 : ∃ (s : State), s.sup.inReset = false ∧ s.fuses.dbgLock = false :=
  ⟨State.reset, by decide⟩

theorem met_WatchdogsKillKeysAndDebugActAsStated_30 : ∃ (s : State), s.sup.dbgBlow = false :=
  ⟨State.reset, by decide⟩

theorem met_WatchdogsKillKeysAndDebugActAsStated_31 : ∃ (s : State), s.sup.dbgBlow = true :=
  ⟨{ State.reset with sup := { dbgBlow := true } }, by decide⟩

theorem met_TheSafetyPortAnswersEachFrame_1 : ∃ (s : State), ∃ (f : BitVec 32) (c : Instr), c ∈ ([.spNop f, .spRead f,
    .spWrite f, .dataHi f, .dataLo f, .kill f] : List Instr) ∧ s.sup.inReset = true :=
  ⟨{ sup := { inReset := true } }, 1, .kill 1, by decide⟩

theorem met_TheSafetyPortAnswersEachFrame_2 : ∃ (s : State), ∃ (f : BitVec 32) (c : Instr), c ∈ ([.spNop f, .spRead f,
    .spWrite f, .dataHi f, .dataLo f, .kill f] : List Instr) ∧ s.sup.inReset = false ∧ portOk f = false :=
  ⟨State.reset, 1, .dataLo 1, by decide⟩

theorem met_TheSafetyPortAnswersEachFrame_3 : ∃ (s : State), ∃ (f : BitVec 32) (c : Instr), c ∈ ([.spNop f, .spRead f,
    .spWrite f, .dataHi f, .dataLo f, .kill f] : List Instr) ∧ s.sup.inReset = false ∧ portOk f = true ∧ ((portOp f = 0 ∧ c
    ≠ .spNop f) ∨ (portOp f = 1 ∧ c ≠ .spRead f) ∨ (portOp f = 2 ∧ c ≠ .spWrite f) ∨ (portOp f = 3 ∧ c ≠ .dataHi f) ∨
    (portOp f = 4 ∧ c ≠ .dataLo f) ∨ (portOp f = 5 ∧ c ≠ .kill f) ∨ 6 ≤ portOp f) :=
  ⟨State.reset, portFrame 3 4 3, .spNop (portFrame 3 4 3), by decide⟩

theorem met_TheSafetyPortAnswersEachFrame_4 : ∃ (s : State) (f : BitVec 32), s.sup.inReset = false ∧ portOk f = true ∧
    portOp f = 0 :=
  ⟨State.reset, portFrame 0 0 3, by decide⟩

theorem met_TheSafetyPortAnswersEachFrame_5 : ∃ (s : State), ∃ (f : BitVec 32) (k u : State) (v : BitVec 32), k = { s with
    sup := { s.sup with spOut := s.sup.spReply } } ∧ s.sup.inReset = false ∧ portOk f = true ∧ portOp f = 1 ∧ k.readRegister
    .sp (4 * (portAddr f).toNat) 0xF = (v, u) :=
  ⟨State.reset, portFrame 1 4 3, _, _, _, rfl, by decide, by decide, by decide, rfl⟩

theorem met_TheSafetyPortAnswersEachFrame_6 : ∃ (s : State) (f : BitVec 32), s.sup.inReset = false ∧ portOk f = true ∧
    portOp f = 2 :=
  ⟨State.reset, portFrame 2 4 3, by decide⟩

theorem met_TheSafetyPortAnswersEachFrame_7 : ∃ (s : State) (f : BitVec 32) (a : BitVec 14), s.sup.inReset = false ∧ portOk
    f = true ∧ portOp f = 3 ∧ s.sup.spStage = .writing a (portSeq f) :=
  ⟨{ State.reset with sup := { spStage := .writing 8 3 } }, portFrame 3 4 3, 8, by decide⟩

theorem met_TheSafetyPortAnswersEachFrame_8 : ∃ (s : State) (f : BitVec 32), s.sup.inReset = false ∧ portOk f = true ∧
    portOp f = 3 ∧ awaitsHi s.sup.spStage (portSeq f) = false :=
  ⟨State.reset, portFrame 3 4 3, by decide⟩

theorem met_TheSafetyPortAnswersEachFrame_9 : ∃ (s : State), ∃ (f : BitVec 32) (a : BitVec 14) (hi : BitVec 16) (k : State),
    k = { s with sup := { s.sup with spOut := s.sup.spReply, spStage := .idle, spLow := none } } ∧ s.sup.inReset = false ∧
    portOk f = true ∧ portOp f = 4 ∧ s.sup.spStage = .writingLo a (portSeq f) hi :=
  ⟨{ State.reset with sup := { spStage := .writingLo 8 3 0 } }, portFrame 4 4 3, 8, 0, _, rfl, by decide⟩

theorem met_TheSafetyPortAnswersEachFrame_10 : ∃ (s : State) (f : BitVec 32), s.sup.inReset = false ∧ portOk f = true ∧
    portOp f = 4 ∧ awaitsLo s.sup.spStage (portSeq f) = false :=
  ⟨State.reset, portFrame 4 4 3, by decide⟩

theorem met_TheSafetyPortAnswersEachFrame_11 : ∃ (s : State) (f : BitVec 32), s.sup.inReset = false ∧ portOk f = true ∧
    portOp f = 5 ∧ portData f = 0x2A5C :=
  ⟨State.reset, portFrame 5 0x2A5C 3, by decide⟩

theorem met_TheSafetyPortAnswersEachFrame_12 : ∃ (s : State) (f : BitVec 32), s.sup.inReset = false ∧ portOk f = true ∧
    portOp f = 5 ∧ portData f ≠ 0x2A5C :=
  ⟨State.reset, portFrame 5 0x2A5D 3, by decide⟩

theorem met_TheSafetyPortAnswersEachFrame_13 : ∃ (s : State), ∃ (a : Agent) (addr : BitVec 24) (be : BitVec 4),
    s.sup.inReset = true :=
  ⟨{ sup := { inReset := true } }, .f0, 4, 15, by decide⟩

theorem met_TheSafetyPortAnswersEachFrame_14 : ∃ (s : State) (a : Agent) (addr : BitVec 24), s.sup.inReset = false :=
  ⟨State.reset, .f0, 4, by decide⟩

end Sys2Proof.Tests
end

/-! ## The gate pins through a step (R3, R239)

Two facts say what an operation does to the gate pins, one lemma each. An operation that leaves them alone has a simp
lemma `foo_pins`: the pins after it are the pins before it. One that may drive a pin has `foo_exclusive`: it keeps the
pins of every leg exclusive. Few places decide anew which pins are high: `setPins`, whose two values `takeX` and
`pinsDue` keep apart in every output mode; `scrambleLeg`, whose free value drives one pin at most; `restoreLeg` and
`wiped`, which drive none. All the rest follows the calls of the model, an operation after those it calls, up to
`exec` and `step`. -/

namespace Sys2Proof.Machine

/-! ### The pins of a state -/

/-- The pins of the legs of a bank: GH and GL of each. -/
def legPins (v : Vector Leg 64) : Fin 64 → Bool × Bool := fun l => (v[l].gh, v[l].gl)

/-- The gate pins of every leg. -/
def State.pins (s : State) : Fin 64 → Bool × Bool := legPins s.legs

/-- No leg drives both pins high (R3, R239). -/
def Exclusive (p : Fin 64 → Bool × Bool) : Prop := ∀ l, ¬ ((p l).1 = true ∧ (p l).2 = true)

theorem State.exclusive_pins (s : State) : Exclusive s.pins ↔ s.PinsExclusive := Iff.rfl

@[simp] theorem legPins_legs (s : State) : legPins s.legs = s.pins := by unfold State.pins; rfl

/-- The pins are read off the legs alone, whatever the other fields of a new state are. -/
@[simp] theorem State.pins_mk (pending regs time age fine caps lockNext tick tb fuses img tiles easels f0 f0Poll f0PollStale
    f0PollFrom bme pcie turn legs ain cmps groups router adc picked links pods wheel grid mtr aux sup unpredRegs outbox
    freeCount) :
    State.pins ⟨pending, regs, time, age, fine, caps, lockNext, tick, tb, fuses, img, tiles, easels, f0, f0Poll,
      f0PollStale, f0PollFrom, bme, pcie, turn, legs, ain, cmps, groups, router, adc, picked, links, pods, wheel, grid, mtr,
      aux, sup, unpredRegs, outbox, freeCount⟩ = legPins legs := by
  unfold State.pins; rfl

@[simp] theorem State.ite_pins {c : Prop} [Decidable c] (a b : State) :
    (if c then a else b).pins = if c then a.pins else b.pins := apply_ite State.pins c a b

/-- The pins `p` with those of leg `l` replaced. -/
def withPin (p : Fin 64 → Bool × Bool) (l : Fin 64) (q : Bool × Bool) : Fin 64 → Bool × Bool :=
  fun k => if k = l then q else p k

@[simp] theorem withPin_same (p : Fin 64 → Bool × Bool) (l : Fin 64) (q : Bool × Bool) : withPin p l q l = q := by
  simp [withPin]

theorem withPin_other (p : Fin 64 → Bool × Bool) {l k : Fin 64} (hk : k ≠ l) (q : Bool × Bool) :
    withPin p l q k = p k := by
  simp [withPin, hk]

theorem withPin_self (p : Fin 64 → Bool × Bool) (l : Fin 64) : withPin p l (p l) = p := by
  funext k
  by_cases hk : k = l
  · subst hk; exact withPin_same p k (p k)
  · exact withPin_other p hk _

/-- Rewriting one leg rewrites its pins alone. -/
theorem legPins_upd (v : Vector Leg 64) (l : Fin 64) (f : Leg → Leg) :
    legPins (upd v l f) = withPin (legPins v) l ((f v[l]).gh, (f v[l]).gl) := by
  funext k
  by_cases hk : k = l
  · subst hk; simp [legPins, upd]
  · have hv : l.val ≠ k.val := fun e => hk (Fin.ext e.symm)
    rw [withPin_other _ hk]
    simp [legPins, upd, hv]

/-! ### Exclusive pins -/

theorem Exclusive.update {p : Fin 64 → Bool × Bool} (h : Exclusive p) (l : Fin 64) {q : Bool × Bool}
    (hq : (q.1 && q.2) = false) : Exclusive (withPin p l q) := by
  intro k
  by_cases hk : k = l
  · subst hk; simpa using hq
  · rw [withPin_other p hk]
    exact h k

@[simp] theorem Exclusive.ite {c : Prop} [Decidable c] {a b : Fin 64 → Bool × Bool} (ha : Exclusive a)
    (hb : Exclusive b) : Exclusive (if c then a else b) := by
  split
  · exact ha
  · exact hb

theorem Exclusive.either {a b : State} (ha : Exclusive a.pins) (hb : Exclusive b.pins) {c : Prop} [Decidable c] :
    Exclusive (if c then a else b).pins := by
  split
  · exact ha
  · exact hb

theorem Exclusive.when {s t : State} (h : Exclusive s.pins) (ht : Exclusive t.pins) {c : Prop} [Decidable c] :
    Exclusive (if c then t else s).pins := ht.either h

/-- Wherever an outcome goes on, the pins of every leg are exclusive. -/
def NextExclusive (o : Host.Outcome State Fault Refusal) : Prop := ∀ t, o = .next t → Exclusive t.pins

@[simp] theorem nextExclusive_next (s : State) : NextExclusive (.next s) ↔ Exclusive s.pins :=
  ⟨fun h => h s rfl, fun h t e => by cases e; exact h⟩

@[simp] theorem NextExclusive.ite {c : Prop} [Decidable c] {a b : Host.Outcome State Fault Refusal}
    (ha : NextExclusive a) (hb : NextExclusive b) : NextExclusive (if c then a else b) := by
  split
  · exact ha
  · exact hb

/-! ### Loops -/

@[simp] theorem forAll_pins {n : Nat} {f : Fin n → State → State} (s : State) (hf : ∀ i u, (f i u).pins = u.pins) :
    (forAll n f s).pins = s.pins :=
  forAll_keeps (P := fun u => u.pins = s.pins) (fun i u hu => (hf i u).trans hu) s rfl

@[simp] theorem foldl_pins {β : Type} {f : State → β → State} (l : List β) (s : State)
    (hf : ∀ u b, (f u b).pins = u.pins) : (l.foldl f s).pins = s.pins :=
  foldl_keeps (P := fun u => u.pins = s.pins) (fun u b hu => (hf u b).trans hu) l s rfl

@[simp] theorem foldl_snd_pins {α β : Type} {f : α × State → β → α × State} (l : List β) (a : α × State)
    (hf : ∀ y b, (f y b).2.pins = y.2.pins) : (l.foldl f a).2.pins = a.2.pins :=
  foldl_keeps (P := fun y => y.2.pins = a.2.pins) (fun y b hy => (hf y b).trans hy) l a rfl

@[simp] theorem forAll_exclusive {n : Nat} {f : Fin n → State → State} {s : State} (h : Exclusive s.pins)
    (hf : ∀ i u, Exclusive u.pins → Exclusive (f i u).pins) : Exclusive (forAll n f s).pins :=
  forAll_keeps (P := fun u => Exclusive u.pins) hf s h

@[simp] theorem foldl_exclusive {β : Type} {f : State → β → State} (l : List β) {s : State} (h : Exclusive s.pins)
    (hf : ∀ u b, Exclusive u.pins → Exclusive (f u b).pins) : Exclusive (l.foldl f s).pins :=
  foldl_keeps (P := fun u => Exclusive u.pins) hf l s h

/-! ### Fields of registers and of the units -/

@[simp] theorem State.set_pins (s : State) (f : Fld) (x : Nat) : (s.set f x).pins = s.pins := by simp [State.set]

@[simp] theorem State.setFlag_pins (s : State) (f : Fld) (b : Bool) : (s.setFlag f b).pins = s.pins := by
  simp [State.setFlag]

@[simp] theorem State.setBit_pins (s : State) (f : Fld) (i : Nat) (b : Bool) : (s.setBit f i b).pins = s.pins := by
  simp [State.setBit]

@[simp] theorem State.noteCount_pins (s : State) (f : Fld) : (s.noteCount f).pins = s.pins := by simp [State.noteCount]

@[simp] theorem State.modEz_pins (s : State) (e : Fin 8) (f : Easel → Easel) : (s.modEz e f).pins = s.pins := by
  simp [State.modEz]

@[simp] theorem State.modTile_pins (s : State) (t : Fin 16) (f : Tile → Tile) : (s.modTile t f).pins = s.pins := by
  simp [State.modTile]

@[simp] theorem State.modTb_pins (s : State) (f : Timebase → Timebase) : (s.modTb f).pins = s.pins := by
  simp [State.modTb]

@[simp] theorem State.modSup_pins (s : State) (f : Sup → Sup) : (s.modSup f).pins = s.pins := by simp [State.modSup]

@[simp] theorem State.pulse_pins (s : State) (src : Nat) : (s.pulse src).pins = s.pins := by simp [State.pulse]

/-! ### Shared operations -/

@[simp] theorem State.ago_pins (s : State) (back : Nat) (f : State → State) (hf : ∀ u, (f u).pins = u.pins) :
    (s.ago back f).pins = s.pins := by
  simp [State.ago, hf]

@[simp] theorem State.raiseBit_pins (s : State) (f : Fld) (i : Nat) : (s.raiseBit f i).pins = s.pins := by
  simp [State.raiseBit]

@[simp] theorem State.raise_pins (s : State) (f : Fld) : (s.raise f).pins = s.pins := by simp [State.raise]

@[simp] theorem State.dropEvent_pins (s : State) (e : Fin 8) (t : Stamp) : (s.dropEvent e t).pins = s.pins := by
  unfold State.dropEvent
  dsimp only
  (repeat' split) <;> simp

@[simp] theorem State.postEaselAt_pins (s : State) (t : Time) (e : Fin 8) (code : Nat) (args : List (BitVec 64)) :
    (s.postEaselAt t e code args).pins = s.pins := by
  unfold State.postEaselAt
  split <;> simp

@[simp] theorem State.postEasel_pins (s : State) (e : Fin 8) (code : Nat) (args : List (BitVec 64)) :
    (s.postEasel e code args).pins = s.pins := by
  simp [State.postEasel]

@[simp] theorem State.postF0For_pins (s : State) (easel : Option (Fin 8)) (code : Nat) (args : List (BitVec 64)) :
    (s.postF0For easel code args).pins = s.pins := by
  unfold State.postF0For
  dsimp only
  split <;> simp

@[simp] theorem State.postF0_pins (s : State) (code : Nat) (args : List (BitVec 64)) :
    (s.postF0 code args).pins = s.pins := by
  simp [State.postF0]

@[simp] theorem State.postOwner_pins (s : State) (o : Option (Fin 8)) (code : Nat) (args : List (BitVec 64)) :
    (s.postOwner o code args).pins = s.pins := by
  unfold State.postOwner
  split <;> simp

@[simp] theorem State.bumpW_pins (s : State) (f sticky : Fld) : (s.bumpW f sticky).pins = s.pins := by
  simp [State.bumpW]

@[simp] theorem State.bumpS_pins (s : State) (f : Fld) : (s.bumpS f).pins = s.pins := by simp [State.bumpS]

@[simp] theorem State.bumpK_pins (s : State) (f : Fld) : (s.bumpK f).pins = s.pins := by simp [State.bumpK]

@[simp] theorem State.countDown_pins (s : State) (f : Fld) : (s.countDown f).pins = s.pins := by
  simp [State.countDown]

@[simp] theorem State.noteWrite_pins (s : State) (a : Agent) (t w : Nat) : (s.noteWrite a t w).pins = s.pins := by
  simp [State.noteWrite]

@[simp] theorem State.draw_pins (s : State) : s.draw.pins = s.pins := by simp [State.draw]

@[simp] theorem State.scrambleLeg_exclusive {s : State} (h : Exclusive s.pins) (l : Fin 64) :
    Exclusive (s.scrambleLeg l).pins := by
  have hp : ∀ (p : Option Bool) (f : Leg → Leg) (_ : ∀ x, (f x).gh = (p == some true) ∧ (f x).gl = (p == some false)),
      Exclusive (legPins (upd s.legs l f)) := fun p f hf => by
    rw [legPins_upd, (hf _).1, (hf _).2]
    exact h.update l (by rcases p with _ | _ | _ <;> rfl)
  unfold State.scrambleLeg
  simp only [State.draw_pins, State.ite_pins, State.setFlag_pins, State.set_pins, State.pins_mk, ite_self]
  exact hp _ _ fun _ => ⟨rfl, rfl⟩

@[simp] theorem State.scrambleWindow_pins (s : State) (e : Fin 8) : (s.scrambleWindow e).pins = s.pins := by
  simp [State.scrambleWindow]

@[simp] theorem State.scrambleBits_pins (s : State) (t mask : Nat) : (s.scrambleBits t mask).pins = s.pins := by
  simp [State.scrambleBits]

@[simp] theorem State.scrambleBlock_pins (s : State) (base n : Nat) : (s.scrambleBlock base n).pins = s.pins := by
  simp [State.scrambleBlock]

@[simp] theorem State.scrambleConv_pins (s : State) (e : Fin 8) : (s.scrambleConv e).pins = s.pins := by
  simp [State.scrambleConv]

@[simp] theorem State.scrambleHost_pins (s : State) (e : Fin 8) : (s.scrambleHost e).pins = s.pins := by
  simp [State.scrambleHost]

@[simp] theorem State.scramble_exclusive {s : State} (h : Exclusive s.pins) (e : Fin 8) :
    Exclusive (s.scramble e).pins := by
  unfold State.scramble
  refine forAll_exclusive (by simp [h]) fun l u hu => ?_
  split
  · exact State.scrambleLeg_exclusive hu l
  · exact hu

@[simp] theorem State.hostError_exclusive {s : State} (h : Exclusive s.pins) (e : Fin 8) :
    Exclusive (s.hostError e).pins := by
  simp [State.hostError, h]

@[simp] theorem State.hostErrors_exclusive {s : State} (h : Exclusive s.pins) (es : List (Fin 8)) :
    Exclusive (s.hostErrors es).pins := by
  simp +contextual [State.hostErrors, h]

@[simp] theorem State.scrambleReg_pins (s : State) (a : Nat) : (s.scrambleReg a).pins = s.pins := by
  simp [State.scrambleReg]

@[simp] theorem State.globalError_pins (s : State) (a : Nat) : (s.globalError a).pins = s.pins := by
  simp [State.globalError]

/-! ### Links at the controller -/

@[simp] theorem State.modLink_pins (s : State) (p : Fin 16) (f : Link → Link) : (s.modLink p f).pins = s.pins := by
  simp [State.modLink]

@[simp] theorem State.postLink_pins (s : State) (p : Fin 16) (code : Nat) (args : List (BitVec 64)) :
    (s.postLink p code args).pins = s.pins := by
  simp [State.postLink]

@[simp] theorem State.carrierOn_pins (s : State) (p : Fin 16) : (s.carrierOn p).pins = s.pins := by
  simp [State.carrierOn]

@[simp] theorem State.carrierOff_pins (s : State) (p : Fin 16) : (s.carrierOff p).pins = s.pins := by
  simp [State.carrierOff]

@[simp] theorem State.slEnter_pins (s : State) (p : Fin 16) (st : Nat) : (s.slEnter p st).pins = s.pins := by
  simp [State.slEnter]

@[simp] theorem State.sendFrame_pins (s : State) (p : Fin 16) (cmd addr data : Nat) :
    (s.sendFrame p cmd addr data).pins = s.pins := by
  simp [State.sendFrame]

@[simp] theorem State.sendAligns_pins (s : State) (p : Fin 16) : (s.sendAligns p).pins = s.pins := by
  simp [State.sendAligns]

@[simp] theorem State.trainStep_pins (s : State) (p : Fin 16) (t : Train) : (s.trainStep p t).pins = s.pins := by
  simp [State.trainStep]

@[simp] theorem State.trainEcho_pins (s : State) (p : Fin 16) : (s.trainEcho p).pins = s.pins := by
  simp [State.trainEcho]

@[simp] theorem State.trainConfig_pins (s : State) (p : Fin 16) (k : Fin 19) : (s.trainConfig p k).pins = s.pins := by
  simp [State.trainConfig]

@[simp] theorem State.trainEnter_pins (s : State) (p : Fin 16) (cause : Nat) :
    (s.trainEnter p cause).pins = s.pins := by
  simp [State.trainEnter]

@[simp] theorem State.linkFails_pins (s : State) (p : Fin 16) : (s.linkFails p).1.pins = s.pins := by
  unfold State.linkFails
  dsimp only
  split <;> simp

@[simp] theorem State.trainFail_pins (s : State) (p : Fin 16) : (s.trainFail p).pins = s.pins := by
  simp [State.trainFail]

@[simp] theorem State.linkUp_pins (s : State) (p : Fin 16) : (s.linkUp p).pins = s.pins := by simp [State.linkUp]

@[simp] theorem State.trainDone_pins (s : State) (p : Fin 16) : (s.trainDone p).pins = s.pins := by
  simp [State.trainDone]

@[simp] theorem State.trainMeasure_pins (s : State) (p : Fin 16) : (s.trainMeasure p).pins = s.pins := by
  simp [State.trainMeasure]

@[simp] theorem State.realign_pins (s : State) (p : Fin 16) : (s.realign p).pins = s.pins := by simp [State.realign]

@[simp] theorem State.capCut_pins (s : State) (p : Fin 16) : (s.capCut p).pins = s.pins := by simp [State.capCut]

@[simp] theorem State.windowStart_pins (s : State) (p : Fin 16) : (s.windowStart p).pins = s.pins := by
  simp [State.windowStart]

@[simp] theorem State.linkRun_pins (s : State) (p : Fin 16) (k back : Nat) : (s.linkRun p k back).pins = s.pins := by
  simp [State.linkRun]

@[simp] theorem State.linkWindows_pins (s : State) (p : Fin 16) (m r back : Nat) :
    (s.linkWindows p m r back).pins = s.pins := by
  induction m generalizing s back with
  | zero => simp [State.linkWindows]
  | succ m ih => simp [State.linkWindows, ih]

@[simp] theorem State.linkElapse_pins (s : State) (n old k : Nat) (p : Fin 16) :
    (s.linkElapse n old k p).pins = s.pins := by
  simp [State.linkElapse]

/-! ### Legs and choke groups -/

theorem State.modLeg_pins_update (s : State) (l : Fin 64) (f : Leg → Leg) :
    (s.modLeg l f).pins = withPin s.pins l ((f s.legs[l]).gh, (f s.legs[l]).gl) := by
  simp [State.modLeg, legPins_upd]

/-- A change of a leg beside its pins. -/
@[simp] theorem State.modLeg_pins (s : State) (l : Fin 64) (f : Leg → Leg)
    (hf : ∀ x, (f x).gh = x.gh ∧ (f x).gl = x.gl) :
    (s.modLeg l f).pins = s.pins := by
  rw [State.modLeg_pins_update, (hf _).1, (hf _).2]
  exact withPin_self s.pins l

@[simp] theorem State.modCmp_pins (s : State) (c : Fin 64) (f : Cmp → Cmp) : (s.modCmp c f).pins = s.pins := by
  simp [State.modCmp]

@[simp] theorem State.blankOpen_pins (s : State) (l : Fin 64) (ed : PinEdge) : (s.blankOpen l ed).pins = s.pins := by
  simp [State.blankOpen]

@[simp] theorem State.setPins_exclusive {s : State} (h : Exclusive s.pins) (l : Fin 64) {gh gl : Bool}
    (hp : (gh && gl) = false) :
    Exclusive (s.setPins l gh gl).pins := by
  have hm : Exclusive (s.modLeg l fun x => { x with gh := gh, gl := gl }).pins := by
    rw [State.modLeg_pins_update]; exact h.update l hp
  unfold State.setPins
  simp [hm]

@[simp] theorem State.pinsLow_exclusive {s : State} (h : Exclusive s.pins) (l : Fin 64) :
    Exclusive (s.pinsLow l).pins := by
  simp [State.pinsLow, h]

@[simp] theorem State.takeX_exclusive {s : State} (h : Exclusive s.pins) (l : Fin 64) :
    Exclusive (s.takeX l).pins := by
  unfold State.takeX
  extract_lets x s₁
  have h₁ : Exclusive s₁.pins := by simpa [s₁] using h
  refine .either h (.either h₁ ?_)
  split
  · exact State.setPins_exclusive h₁ l (by cases x <;> simp)
  · exact State.setPins_exclusive h₁ l (Bool.and_false _)
  · exact State.setPins_exclusive h₁ l (Bool.false_and _)

@[simp] theorem State.setCause_exclusive {s : State} (h : Exclusive s.pins) (l : Fin 64) (c : Nat) :
    Exclusive (s.setCause l c).pins := by
  simp [State.setCause, h]

@[simp] theorem State.clearCause_pins (s : State) (l : Fin 64) (c : Nat) : (s.clearCause l c).pins = s.pins := by
  simp [State.clearCause]

@[simp] theorem State.ownedLegs_pins (s : State) (e : Fin 8) {f : Fin 64 → State → State}
    (hf : ∀ l u, (f l u).pins = u.pins) :
    (s.ownedLegs e f).pins = s.pins := by
  simp [State.ownedLegs, hf]

@[simp] theorem State.ownedLegs_exclusive {s : State} (h : Exclusive s.pins) (e : Fin 8)
    {f : Fin 64 → State → State} (hf : ∀ l u, Exclusive u.pins → Exclusive (f l u).pins) :
    Exclusive (s.ownedLegs e f).pins :=
  forAll_exclusive h fun l u hu => by
    split
    · exact hf l u hu
    · exact hu

@[simp] theorem State.clearDuty_pins (s : State) (l : Fin 64) : (s.clearDuty l).pins = s.pins := by
  simp [State.clearDuty]

@[simp] theorem State.setPending_pins (s : State) (l : Fin 64) (v : Word) : (s.setPending l v).pins = s.pins := by
  simp [State.setPending]

@[simp] theorem State.postGroup_pins (s : State) (g : Fin 16) (code : Nat) (args : List (BitVec 64)) :
    (s.postGroup g code args).pins = s.pins := by
  simp [State.postGroup]

@[simp] theorem State.groupOn_exclusive {s : State} (h : Exclusive s.pins) (g : Fin 16) (arg1 path : Nat) :
    Exclusive (s.groupOn g arg1 path).pins := by
  unfold State.groupOn
  split
  · exact h
  · rw [State.postGroup_pins]
    refine forAll_exclusive (by simpa using h) fun l u hu => ?_
    split
    · exact State.setCause_exclusive hu l _
    · exact hu

@[simp] theorem State.activate_exclusive {s : State} (h : Exclusive s.pins) (g : Fin 16) (src : ChokeSource) :
    Exclusive (s.activate g src).pins := by
  simp [State.activate, h]

@[simp] theorem State.activateMask_exclusive {s : State} (h : Exclusive s.pins) (mask : Nat) (src : ChokeSource) :
    Exclusive (s.activateMask mask src).pins :=
  forAll_exclusive h fun g u hu => by
    split
    · exact State.activate_exclusive hu g src
    · exact hu

@[simp] theorem State.groupOff_pins (s : State) (g : Fin 16) : (s.groupOff g).pins = s.pins := by
  simp [State.groupOff]

@[simp] theorem State.regroup_exclusive {s : State} (h : Exclusive s.pins) (l : Fin 64) :
    Exclusive (s.regroup l).pins := by
  unfold State.regroup
  split <;> simp [h]

@[simp] theorem State.asyncEval_exclusive {s : State} (h : Exclusive s.pins) (c : Fin 64) :
    Exclusive (s.asyncEval c).pins := by
  unfold State.asyncEval
  dsimp only
  (repeat' split) <;> simp [h]

@[simp] theorem State.fltEval_exclusive {s : State} (h : Exclusive s.pins) (l : Fin 64) :
    Exclusive (s.fltEval l).pins := by
  unfold State.fltEval
  dsimp only
  (repeat' split) <;> simp [h]

@[simp] theorem State.fltClear_pins (s : State) (l : Fin 64) : (s.fltClear l).pins = s.pins := by
  simp [State.fltClear]

@[simp] theorem State.legOwnerChanged_exclusive {s : State} (h : Exclusive s.pins) (l : Fin 64) :
    Exclusive (s.legOwnerChanged l).pins := by
  unfold State.legOwnerChanged
  dsimp only
  split <;> simp [h]

@[simp] theorem State.rawEval_exclusive {s : State} (h : Exclusive s.pins) (c : Fin 64) :
    Exclusive (s.rawEval c).pins := by
  simp [State.rawEval, h]

@[simp] theorem State.codeChanged_exclusive {s : State} (h : Exclusive s.pins) (c : Fin 64) :
    Exclusive (s.codeChanged c).pins := by
  simp [State.codeChanged, h]

@[simp] theorem State.setCode_exclusive {s : State} (h : Exclusive s.pins) (c : Fin 64) (upper : Bool) (w : Nat) :
    Exclusive (s.setCode c upper w).pins := by
  simp [State.setCode, h]

/-! ### Schedule images -/

@[simp] theorem State.loadEnd_pins (s : State) (result mask : Nat) : (s.loadEnd result mask).pins = s.pins := by
  simp [State.loadEnd]

@[simp] theorem State.swapDone_pins (s : State) : s.swapDone.pins = s.pins := by
  simp only [State.swapDone, State.postF0_pins, State.pins_mk, legPins_legs, State.set_pins, State.setFlag_pins]

@[simp] theorem State.swapCheck_pins (s : State) : s.swapCheck.pins = s.pins := by simp [State.swapCheck]

@[simp] theorem State.swapEasel_pins (s : State) (e : Fin 8) : (s.swapEasel e).pins = s.pins := by
  simp [State.swapEasel]

@[simp] theorem State.swapReached_pins (s : State) : s.swapReached.pins = s.pins := by simp [State.swapReached]

@[simp] theorem State.swapStopped_pins (s : State) (e : Fin 8) : (s.swapStopped e).pins = s.pins := by
  simp [State.swapStopped]

/-! ### Easel memory -/

@[simp] theorem State.putArray_pins (s : State) (e : Fin 8) (a : Nat) (p : Phys) :
    (s.putArray e a p).pins = s.pins := by
  simp [State.putArray]

@[simp] theorem State.putPhys_pins (s : State) (e : Fin 8) (a : Nat) (p : Phys) :
    (s.putPhys e a p).pins = s.pins := by
  simp [State.putPhys]

@[simp] theorem State.countCe_pins (s : State) (e : Fin 8) : (s.countCe e).pins = s.pins := by simp [State.countCe]

@[simp] theorem State.countUe_pins (s : State) (e : Fin 8) (a : Nat) : (s.countUe e a).pins = s.pins := by
  simp [State.countUe]

@[simp] theorem State.readFound_pins (s : State) (e : Fin 8) (a : Nat) (d : Decoded) :
    (s.readFound e a d).2.pins = s.pins := by
  unfold State.readFound
  split <;> simp

@[simp] theorem State.readMem_pins (s : State) (e : Fin 8) (a : Nat) : (s.readMem e a).2.pins = s.pins := by
  simp [State.readMem]

/-- `readMem` under a name of its own: a goal that holds `readMem` itself has the kernel evaluate the check code (R117). -/
theorem State.exists_readMem : ∃ read, State.readMem = read ∧ ∀ s e a, (read s e a).2.pins = s.pins :=
  ⟨_, rfl, State.readMem_pins⟩

@[simp] theorem State.writeMem_pins (s : State) (e : Fin 8) (a : Nat) (w : TWord) :
    (s.writeMem e a w).pins = s.pins := by
  simp [State.writeMem]

@[simp] theorem State.modTest_pins (s : State) (e : Fin 8) (f : BTest → BTest) : (s.modTest e f).pins = s.pins := by
  simp [State.modTest]

@[simp] theorem State.park_pins (s : State) (e : Fin 8) (a bit : Nat) : (s.park e a bit).pins = s.pins := by
  simp [State.park]

@[simp] theorem State.testKeep_pins (s : State) (e : Fin 8) (a : Nat) (p : Phys) :
    (s.testKeep e a p).pins = s.pins := by
  simp [State.testKeep]

@[simp] theorem State.saveFound_pins (s : State) (e : Fin 8) (a : Nat) (p : Phys) (d : Decoded) :
    (s.saveFound e a p d).pins = s.pins := by
  unfold State.saveFound
  split <;> simp

@[simp] theorem State.testSave_pins (s : State) (e : Fin 8) (a : Nat) : (s.testSave e a).pins = s.pins := by
  simp [State.testSave]

@[simp] theorem State.regionNext_pins (s : State) (e : Fin 8) : (s.regionNext e).pins = s.pins := by
  simp [State.regionNext]

@[simp] theorem State.regionEnd_pins (s : State) (e : Fin 8) : (s.regionEnd e).pins = s.pins := by
  simp [State.regionEnd]

@[simp] theorem State.testEnabled_pins (s : State) (e : Fin 8) : (s.testEnabled e).pins = s.pins := by
  simp [State.testEnabled]

@[simp] theorem State.regionStart_pins (s : State) (e : Fin 8) : (s.regionStart e).pins = s.pins := by
  simp [State.regionStart]

@[simp] theorem State.testAct_pins (s : State) (e : Fin 8) (a : Nat) (kept : Phys) (defect : BitVec 48)
    (t : TestAccess) :
    (s.testAct e a kept defect t).pins = s.pins := by
  unfold State.testAct
  split <;> simp

@[simp] theorem State.testStep_pins (s : State) (e : Fin 8) (sub : Fin 16) (defect : BitVec 48) :
    (s.testStep e sub defect).pins = s.pins := by
  simp [State.testStep]

@[simp] theorem State.testPause_pins (s : State) (e : Fin 8) : (s.testPause e).pins = s.pins := by
  simp [State.testPause]

/-! ### The ledger -/

@[simp] theorem State.modEntry_pins (s : State) (e : Fin 8) (i : Nat) (f : LEntry → LEntry) :
    (s.modEntry e i f).pins = s.pins := by
  simp [State.modEntry]

@[simp] theorem State.ledgerUe_pins (s : State) (e : Fin 8) (i : Nat) : (s.ledgerUe e i).pins = s.pins := by
  simp [State.ledgerUe]

@[simp] theorem State.readWord_pins (s : State) (e : Fin 8) (i : Nat) (w : Fin 10) :
    (s.readWord e i w).pins = s.pins := by
  unfold State.readWord
  split <;> simp

@[simp] theorem State.readEntry_pins (s : State) (e : Fin 8) (i : Nat) : (s.readEntry e i).pins = s.pins := by
  simp [State.readEntry]

@[simp] theorem State.abortPending_pins (s : State) (e : Fin 8) : (s.abortPending e).pins = s.pins := by
  simp [State.abortPending]

@[simp] theorem State.abortNow_pins (s : State) (e : Fin 8) : (s.abortNow e).pins = s.pins := by simp [State.abortNow]

@[simp] theorem State.abortStopped_pins (s : State) (e : Fin 8) : (s.abortStopped e).pins = s.pins := by
  simp [State.abortStopped]

@[simp] theorem State.showWords_pins (s : State) (ws : List (BitVec 64)) : (s.showWords ws).pins = s.pins := by
  simp [State.showWords]

@[simp] theorem State.captureEntry_pins (s : State) : s.captureEntry.pins = s.pins := by
  unfold State.captureEntry
  dsimp only
  split <;> simp only [State.showWords_pins, State.pins_mk, legPins_legs, State.readEntry_pins]

/-! ### Rings and doorbells -/

@[simp] theorem State.send_pins (s : State) (addr : BitVec 64) (ws : List (BitVec 64)) :
    (s.send addr ws).pins = s.pins := by
  simp [State.send]

@[simp] theorem State.sendRead_pins (s : State) (addr : BitVec 64) (bytes : Nat) :
    (s.sendRead addr bytes).pins = s.pins := by
  simp [State.sendRead]

@[simp] theorem State.staleReads_pins (s : State) (e : Fin 8) : (s.staleReads e).pins = s.pins := by
  simp [State.staleReads]

@[simp] theorem State.modFn_pins (s : State) (g : Fin 9) (f : PcieFn → PcieFn) : (s.modFn g f).pins = s.pins := by
  simp [State.modFn]

@[simp] theorem State.sendMsix_pins (s : State) (g : Fin 9) (vec : Nat) : (s.sendMsix g vec).pins = s.pins := by
  simp [State.sendMsix]

@[simp] theorem State.flushMsix_pins (s : State) (g : Fin 9) : (s.flushMsix g).pins = s.pins := by
  simp [State.flushMsix]

@[simp] theorem State.writeBar2_pins (s : State) (g : Fin 9) (off : Nat) (w : BitVec 32) :
    (s.writeBar2 g off w).pins = s.pins := by
  unfold State.writeBar2
  (repeat' split) <;> simp

@[simp] theorem State.reportAer_pins (s : State) (g : Fin 9) : (s.reportAer g).pins = s.pins := by
  simp [State.reportAer]

@[simp] theorem State.resetFn_pins (s : State) (g : Fin 9) : (s.resetFn g).pins = s.pins := by simp [State.resetFn]

@[simp] theorem State.cplIrq_pins (s : State) (e : Fin 8) : (s.cplIrq e).pins = s.pins := by simp [State.cplIrq]

@[simp] theorem State.evtIrq_pins (s : State) (e : Fin 8) : (s.evtIrq e).pins = s.pins := by simp [State.evtIrq]

@[simp] theorem State.smpIrq_pins (s : State) (e : Fin 8) : (s.smpIrq e).pins = s.pins := by simp [State.smpIrq]

@[simp] theorem State.f0Irq_pins (s : State) : s.f0Irq.pins = s.pins := by simp [State.f0Irq]

@[simp] theorem State.irqDownbeat_pins (s : State) (e : Fin 8) : (s.irqDownbeat e).pins = s.pins := by
  simp [State.irqDownbeat]

@[simp] theorem State.irqWindow_pins (s : State) : s.irqWindow.pins = s.pins := by simp [State.irqWindow]

@[simp] theorem State.writeStCpl_pins (s : State) (e : Fin 8) : (s.writeStCpl e).pins = s.pins := by
  simp [State.writeStCpl]

@[simp] theorem State.takeHeads_exclusive {s : State} (h : Exclusive s.pins) (e : Fin 8) (cpl evt smp : BitVec 64) :
    Exclusive (s.takeHeads e cpl evt smp).pins := by
  simp [State.takeHeads, h]

@[simp] theorem State.intakeStart_pins (s : State) (e : Fin 8) (preload : Bool) :
    (s.intakeStart e preload).pins = s.pins := by
  simp [State.intakeStart]

@[simp] theorem State.intakeEnd_pins (s : State) (e : Fin 8) : (s.intakeEnd e).pins = s.pins := by
  simp [State.intakeEnd]

@[simp] theorem State.readsLeft_pins (s : State) (e : Fin 8) (l : List (BitVec 64 × Nat)) :
    (s.readsLeft e l).pins = s.pins := by
  simp [State.readsLeft]

@[simp] theorem State.intakeFail_pins (s : State) (e : Fin 8) : (s.intakeFail e).pins = s.pins := by
  simp [State.intakeFail]

@[simp] theorem State.doorbellTaken_exclusive {s : State} (h : Exclusive s.pins) (e : Fin 8) (preload : Bool)
    (w : Vector (BitVec 64) 4) :
    Exclusive (s.doorbellTaken e preload w).pins := by
  have ht : ∀ (f : Easel → Easel) (f' : Fld) (x : Nat),
      Exclusive ((((s.takeHeads e w[1] w[2] w[3]).set f' x).modEz e f).draw).pins := by simp [h]
  exact .either (State.hostError_exclusive (ht _ _ _) e) (ht _ _ _)

@[simp] theorem State.accept_exclusive {s : State} (h : Exclusive s.pins) (e : Fin 8) (d : Entry) :
    Exclusive (s.accept e d).pins := by
  simp [State.accept, h]

@[simp] theorem State.writeCompletion_pins (s : State) (e : Fin 8) (g : List LEntry) :
    (s.writeCompletion e g).pins = s.pins := by
  simp [State.writeCompletion]

@[simp] theorem State.writeCompletions_pins (s : State) (e : Fin 8) : (s.writeCompletions e).pins = s.pins := by
  simp [State.writeCompletions]

@[simp] theorem State.drainEvent_pins (s : State) (e : Fin 8) (x : EventE) : (s.drainEvent e x).pins = s.pins := by
  simp [State.drainEvent]

@[simp] theorem State.drainSample_pins (s : State) (e : Fin 8) (x : SampleE) : (s.drainSample e x).pins = s.pins := by
  simp [State.drainSample]

@[simp] theorem State.drainF0_pins (s : State) (x : EventE) : (s.drainF0 x).pins = s.pins := by simp [State.drainF0]

@[simp] theorem State.dropSample_pins (s : State) (e : Fin 8) : (s.dropSample e).pins = s.pins := by
  simp [State.dropSample]

@[simp] theorem State.closeSample_pins (s : State) (e : Fin 8) : (s.closeSample e).pins = s.pins := by
  unfold State.closeSample
  split <;> simp

@[simp] theorem State.joinSample_pins (s : State) (e : Fin 8) (o : OpenSample) (r : SampleRec) :
    (s.joinSample e o r).pins = s.pins := by
  simp [State.joinSample]

@[simp] theorem State.landSample_pins (s : State) (e : Fin 8) (db : BitVec 48) (r : SampleRec) :
    (s.landSample e db r).pins = s.pins := by
  unfold State.landSample
  dsimp only
  (repeat' split) <;> simp

@[simp] theorem State.ringZero_pins (s : State) (e : Fin 8) : (s.ringZero e).pins = s.pins := by simp [State.ringZero]

@[simp] theorem State.setRingEn_exclusive {s : State} (h : Exclusive s.pins) (e : Fin 8) (on : Bool) :
    Exclusive (s.setRingEn e on).pins := by
  unfold State.setRingEn
  extract_lets was s₁ s₂ s₃ clash s₄
  have h₁ : Exclusive s₁.pins := by simpa [s₁] using h
  have h₂ : Exclusive s₂.pins := by simpa [s₂] using h₁
  have h₃ : Exclusive s₃.pins := by simpa [s₃] using h₂
  have h₄ : Exclusive s₄.pins := h₃.when (State.hostError_exclusive h₃ e)
  exact .either (.either h₂ (State.hostErrors_exclusive h₄ _)) (by simpa using h₁)

@[simp] theorem State.linkFaultOf_pins (s : State) (e : Fin 8) (status : Nat) :
    (s.linkFaultOf e status).pins = s.pins := by
  simp [State.linkFaultOf]

@[simp] theorem State.linkFault_pins (s : State) (es : List (Fin 8)) : (s.linkFault es).pins = s.pins := by
  simp [State.linkFault]

/-! ### The phase wheel -/

@[simp] theorem State.modWheel_pins (s : State) (f : Wheel → Wheel) : (s.modWheel f).pins = s.pins := by
  simp [State.modWheel]

@[simp] theorem State.postWheel_pins (s : State) (code : Nat) (args : List (BitVec 64)) :
    (s.postWheel code args).pins = s.pins := by
  simp [State.postWheel]

@[simp] theorem State.addAngle_pins (s : State) (d : Int) : (s.addAngle d).pins = s.pins := by simp [State.addAngle]

@[simp] theorem State.setFreq_pins (s : State) (x : Nat) : (s.setFreq x).pins = s.pins := by simp [State.setFreq]

@[simp] theorem State.wheelTicks_pins (s : State) (n : Nat) : (s.wheelTicks n).pins = s.pins := by
  simp [State.wheelTicks]

@[simp] theorem State.disarm_pins (s : State) : s.disarm.pins = s.pins := by simp [State.disarm]

@[simp] theorem State.noScale_pins (s : State) : s.noScale.pins = s.pins := by simp [State.noScale]

@[simp] theorem State.failPulses_pins (s : State) : s.failPulses.pins = s.pins := by simp [State.failPulses]

@[simp] theorem State.wheelEnter_pins (s : State) (st cause : Nat) : (s.wheelEnter st cause).pins = s.pins := by
  simp only [State.wheelEnter, State.postWheel_pins, State.ite_pins, State.failPulses_pins, State.noScale_pins,
    State.disarm_pins, State.bumpS_pins, State.set_pins, State.modWheel_pins, ite_self]

@[simp] theorem State.blendStart_pins (s : State) (st cause : Nat) (delta : Int) (freq : Nat) :
    (s.blendStart st cause delta freq).pins = s.pins := by
  simp [State.blendStart]

@[simp] theorem State.wheelOwnerStops_pins (s : State) (e : Fin 8) : (s.wheelOwnerStops e).pins = s.pins := by
  simp [State.wheelOwnerStops]

@[simp] theorem State.residSample_pins (s : State) (resid : Option Word) : (s.residSample resid).pins = s.pins := by
  simp [State.residSample]

@[simp] theorem State.observe_pins (s : State) : s.observe.pins = s.pins := by
  unfold State.observe
  dsimp only
  (repeat' split) <;> simp

@[simp] theorem State.keepEdge_pins (s : State) (rising : Bool) (t : Time) : (s.keepEdge rising t).pins = s.pins := by
  simp [State.keepEdge]

@[simp] theorem State.badEdge_pins (s : State) (rising : Bool) (t : Time) (interval : Nat) :
    (s.badEdge rising t interval).pins = s.pins := by
  simp [State.badEdge]

@[simp] theorem State.patternEdge_pins (s : State) (rising : Bool) (t : Time) :
    (s.patternEdge rising t).pins = s.pins := by
  unfold State.patternEdge
  dsimp only
  split <;> simp

@[simp] theorem State.limpEdge_pins (s : State) (rising : Bool) (t : Time) : (s.limpEdge rising t).pins = s.pins := by
  unfold State.limpEdge
  dsimp only
  split <;> simp

@[simp] theorem State.edge_pins (s : State) (rising : Bool) (t : Time) : (s.edge rising t).pins = s.pins := by
  unfold State.edge
  split <;> simp

@[simp] theorem State.seeEdge_pins (s : State) (before : Bool) : (s.seeEdge before).pins = s.pins := by
  simp [State.seeEdge]

@[simp] theorem State.blendStep_pins (s : State) : s.blendStep.pins = s.pins := by simp [State.blendStep]

@[simp] theorem State.eventSet_pins (s : State) : s.eventSet.pins = s.pins := by simp [State.eventSet]

@[simp] theorem State.arm_pins (s : State) (k : Fin 40) (t : Nat) : (s.arm k t).pins = s.pins := by simp [State.arm]

/-! ### A pass between its downbeats -/

@[simp] theorem State.modPass_pins (s : State) (e : Fin 8) (f : Pass → Pass) : (s.modPass e f).pins = s.pins := by
  simp [State.modPass]

@[simp] theorem State.killRuns_pins (s : State) (e : Fin 8) : (s.killRuns e).pins = s.pins := by simp [State.killRuns]

@[simp] theorem State.dropPass_pins (s : State) (e : Fin 8) : (s.dropPass e).pins = s.pins := by simp [State.dropPass]

@[simp] theorem State.slipPass_pins (s : State) (e : Fin 8) : (s.slipPass e).pins = s.pins := by
  unfold State.slipPass
  split <;> simp

@[simp] theorem State.predict_pins (s : State) (e : Fin 8) : (s.predict e).pins = s.pins := by
  unfold State.predict
  split <;> simp

@[simp] theorem State.raiseFault_pins (s : State) (e : Fin 8) (c : FaultClass) (i : Nat) :
    (s.raiseFault e c i).pins = s.pins := by
  simp [State.raiseFault]

@[simp] theorem State.landOne_pins (s : State) (e : Fin 8) (i : Nat) (val : Word) (flags : BitVec 8) :
    (s.landOne e i val flags).pins = s.pins := by
  simp [State.landOne]

@[simp] theorem State.landLate_pins (s : State) (e : Fin 8) (p : Pass) (i : Nat) :
    (s.landLate e p i).pins = s.pins := by
  simp [State.landLate]

@[simp] theorem State.landTag_pins (s : State) (e : Fin 8) (tag : BitVec 16) (val : Word) (flags : BitVec 8) :
    (s.landTag e tag val flags).pins = s.pins := by
  unfold State.landTag
  split <;> simp

@[simp] theorem State.finalPass_pins (s : State) (e : Fin 8) : (s.finalPass e).pins = s.pins := by
  simp [State.finalPass]

@[simp] theorem State.startRepaint_pins (s : State) (e : Fin 8) : (s.startRepaint e).pins = s.pins := by
  unfold State.startRepaint
  split <;> simp

@[simp] theorem State.formVerdict_pins (s : State) (e : Fin 8) : (s.formVerdict e).pins = s.pins := by
  unfold State.formVerdict
  split <;> simp

@[simp] theorem State.compareWords_pins (s : State) (e : Fin 8) (p : Pass) (i : Nat) (pred land : TWord) :
    (s.compareWords e p i pred land).pins = s.pins := by
  simp [State.compareWords]

@[simp] theorem State.compareInput_pins (s : State) (e : Fin 8) (p : Pass) (i : Nat) :
    (s.compareInput e p i).pins = s.pins := by
  simp [State.compareInput]

@[simp] theorem State.checkFire_pins (s : State) (e : Fin 8) (p : Pass) : (s.checkFire e p).pins = s.pins := by
  unfold State.checkFire
  dsimp only
  split <;> simp

/-! ### Fans, coils and the discharge -/

@[simp] theorem State.modFan_pins (s : State) (n : Fin 4) (f : Fan → Fan) : (s.modFan n f).pins = s.pins := by
  simp [State.modFan]

@[simp] theorem State.postFan_pins (s : State) (n : Fin 4) (code : Nat) (args : List (BitVec 64)) :
    (s.postFan n code args).pins = s.pins := by
  simp [State.postFan]

@[simp] theorem State.fanEnter_pins (s : State) (n : Fin 4) (st : Nat) : (s.fanEnter n st).pins = s.pins := by
  simp [State.fanEnter]

@[simp] theorem State.fanStall_pins (s : State) (n : Fin 4) : (s.fanStall n).pins = s.pins := by simp [State.fanStall]

@[simp] theorem State.fanTachGone_pins (s : State) (n : Fin 4) : (s.fanTachGone n).pins = s.pins := by
  simp [State.fanTachGone]

@[simp] theorem State.fanApply_pins (s : State) (n : Fin 4) : (s.fanApply n).pins = s.pins := by simp [State.fanApply]

@[simp] theorem State.fanEdge_pins (s : State) (n : Fin 4) : (s.fanEdge n).pins = s.pins := by
  unfold State.fanEdge
  dsimp only
  (repeat' split) <;> simp

@[simp] theorem State.tachCount_pins (s : State) (n : Fin 4) : (s.tachCount n).pins = s.pins := by
  simp [State.tachCount]

@[simp] theorem State.modCoil_pins (s : State) (n : Fin 8) (f : Coil → Coil) : (s.modCoil n f).pins = s.pins := by
  simp [State.modCoil]

@[simp] theorem State.coilTake_pins (s : State) (n : Fin 8) : (s.coilTake n).pins = s.pins := by simp [State.coilTake]

@[simp] theorem State.setDelayed_pins (s : State) (n : Fin 8) (on : Bool) : (s.setDelayed n on).pins = s.pins := by
  simp [State.setDelayed]

@[simp] theorem State.coilOn_pins (s : State) (n : Fin 8) : (s.coilOn n).pins = s.pins := by
  simp only [State.coilOn, State.modCoil_pins, State.ite_pins, State.pins_mk, legPins_legs, State.setFlag_pins, ite_self]

@[simp] theorem State.coilOff_pins (s : State) (n : Fin 8) (due : Nat) : (s.coilOff n due).pins = s.pins := by
  simp [State.coilOff]

@[simp] theorem State.tryOff_pins (s : State) (n : Fin 8) : (s.tryOff n).pins = s.pins := by
  unfold State.tryOff
  split <;> simp

@[simp] theorem State.turnOffs_pins (s : State) (g : Fin 2) : (s.turnOffs g).pins = s.pins := by simp [State.turnOffs]

@[simp] theorem State.coilApply_pins (s : State) (n : Fin 8) : (s.coilApply n).pins = s.pins := by
  simp [State.coilApply]

@[simp] theorem State.coilsApply_pins (s : State) : s.coilsApply.pins = s.pins := by simp [State.coilsApply]

@[simp] theorem State.postDsch_pins (s : State) (code : Nat) (args : List (BitVec 64)) :
    (s.postDsch code args).pins = s.pins := by
  unfold State.postDsch
  dsimp only
  split <;> simp

@[simp] theorem State.dschUpdate_pins (s : State) (cause : Nat) : (s.dschUpdate cause).pins = s.pins := by
  simp [State.dschUpdate]

@[simp] theorem State.dschCut_pins (s : State) : s.dschCut.pins = s.pins := by simp [State.dschCut]

@[simp] theorem State.dschDone_pins (s : State) : s.dschDone.pins = s.pins := by simp [State.dschDone]

@[simp] theorem State.dschTick_pins (s : State) : s.dschTick.pins = s.pins := by simp [State.dschTick]

@[simp] theorem State.dschTicks_pins (s : State) (n : Nat) : (s.dschTicks n).pins = s.pins := by
  induction n generalizing s with
  | zero => rfl
  | succ n ih => rw [State.dschTicks, ih, State.ago_pins _ _ _ State.dschTick_pins]

@[simp] theorem State.auxApply_pins (s : State) : s.auxApply.pins = s.pins := by simp [State.auxApply]

@[simp] theorem State.coolClamp_pins (s : State) (g : Fin 2) (n : Nat) : (s.coolClamp g n).pins = s.pins := by
  simp [State.coolClamp]

@[simp] theorem State.coolGroup_pins (s : State) (g : Fin 2) (fuel n : Nat) :
    (s.coolGroup g fuel n).pins = s.pins := by
  induction fuel generalizing s n with
  | zero => rw [State.coolGroup, State.coolClamp_pins]
  | succ fuel ih =>
    unfold State.coolGroup
    split
    · split <;> simp [ih]
    · exact State.coolClamp_pins ..

@[simp] theorem State.auxTicks_pins (s : State) (n : Nat) : (s.auxTicks n).pins = s.pins := by simp [State.auxTicks]

/-! ### The safe state -/

@[simp] theorem State.postAll_pins (s : State) (code : Nat) (args : List (BitVec 64)) :
    (s.postAll code args).pins = s.pins := by
  simp [State.postAll]

@[simp] theorem State.safeHolds_exclusive {s : State} (h : Exclusive s.pins) : Exclusive s.safeHolds.pins := by
  simp +contextual [State.safeHolds, h]

@[simp] theorem State.safeEnter_exclusive {s : State} (h : Exclusive s.pins) (c : Nat) :
    Exclusive (s.safeEnter c).pins := by
  simp [State.safeEnter, h]

@[simp] theorem State.safeClear_pins (s : State) : s.safeClear.pins = s.pins := by simp [State.safeClear]

/-! ### The timebase -/

@[simp] theorem State.tbBlend_pins (s : State) (at_ st : Nat) (target : Int) :
    (s.tbBlend at_ st target).pins = s.pins := by
  simp [State.tbBlend]

@[simp] theorem State.tbLevels_pins (s : State) (at_ : Nat) : (s.tbLevels at_).pins = s.pins := by
  simp [State.tbLevels]

@[simp] theorem State.nextCandidate_pins (s : State) (e : Fin 8) : (s.nextCandidate e).pins = s.pins := by
  unfold State.nextCandidate
  split <;> simp

@[simp] theorem State.calGood_pins (s : State) (n : BitVec 9) : (s.calGood n).pins = s.pins := by simp [State.calGood]

@[simp] theorem State.calBad_pins (s : State) (n : BitVec 9) : (s.calBad n).pins = s.pins := by simp [State.calBad]

@[simp] theorem State.tempoFor_pins (s : State) (tempo : Nat) (e : Fin 8) : (s.tempoFor tempo e).pins = s.pins := by
  simp [State.tempoFor]

@[simp] theorem State.publish_pins (s : State) (tempo : BitVec 16) (ring : Nat) :
    (s.publish tempo ring).pins = s.pins := by
  simp [State.publish]

/-! ### The passing of time -/

@[simp] theorem State.wdAdvance_pins (s : State) (age : Nat) (w : Fin 9) : (s.wdAdvance age w).pins = s.pins := by
  simp [State.wdAdvance]

@[simp] theorem State.locksAct_pins (s : State) : s.locksAct.pins = s.pins := by simp [State.locksAct]

@[simp] theorem State.safeClrAct_pins (s : State) : s.safeClrAct.pins = s.pins := by simp [State.safeClrAct]

@[simp] theorem State.wildSetting_exclusive {s : State} (h : Exclusive s.pins) (t : Nat) :
    Exclusive (s.wildSetting t).pins := by
  unfold State.wildSetting
  dsimp only
  (repeat' split) <;> simp [h]

@[simp] theorem State.rescrambleOutputs_pins (s : State) : s.rescrambleOutputs.pins = s.pins := by
  unfold State.rescrambleOutputs
  split <;> simp

@[simp] theorem State.rescramble_exclusive {s : State} (h : Exclusive s.pins) : Exclusive s.rescramble.pins := by
  unfold State.rescramble
  extract_lets es s₁ s₂
  have h₁ : Exclusive s₁.pins := foldl_exclusive _ h fun _ e hu => State.scramble_exclusive hu e
  have h₂ : Exclusive s₂.pins := foldl_exclusive _ h₁ fun u t hu => by
    split
    · exact State.wildSetting_exclusive hu t
    · split <;> simpa using hu
  exact .either h₂ (by simpa using h₂)

@[simp] theorem State.coarse_exclusive {s : State} (h : Exclusive s.pins) (age k : Nat) :
    Exclusive (s.coarse age k).pins := by
  simp [State.coarse, h]

@[simp] theorem State.elapse_exclusive {s : State} (h : Exclusive s.pins) (n : Nat) :
    Exclusive (s.elapse n).pins := by
  unfold State.elapse
  split <;> simp [h]

@[simp] theorem State.reach_exclusive {s : State} (h : Exclusive s.pins) (t : Time) : Exclusive (s.reach t).pins := by
  simp [State.reach, h]

@[simp] theorem State.reachAge_exclusive {s : State} (h : Exclusive s.pins) (t : Nat) :
    Exclusive (s.reachAge t).pins := by
  simp [State.reachAge, h]

@[simp] theorem State.reachMultiple_exclusive {s : State} (h : Exclusive s.pins) (m : Nat) :
    Exclusive (s.reachMultiple m).pins := by
  simp [State.reachMultiple, h]

@[simp] theorem State.reachCoarse_exclusive {s : State} (h : Exclusive s.pins) : Exclusive s.reachCoarse.pins := by
  simp [State.reachCoarse, h]

/-! ### Events of fans, coils and the discharge -/

@[simp] theorem State.afterCommit_exclusive {s : State} (h : Exclusive s.pins) (es : List (Fin 8)) :
    Exclusive (s.afterCommit es).pins := by
  simp [State.afterCommit, h]

@[simp] theorem State.fanSilent_pins (s : State) (n : Fin 4) : (s.fanSilent n).pins = s.pins := by
  simp [State.fanSilent]

@[simp] theorem State.awaitOff_exclusive {s : State} (h : Exclusive s.pins) (n : Fin 8) (k : Nat) :
    Exclusive (s.awaitOff n k).pins := by
  induction k generalizing s with
  | zero => exact h
  | succ k ih =>
    rw [State.awaitOff]
    refine .either ?_ h
    split
    · exact ih (by rw [State.turnOffs_pins]; exact State.elapse_exclusive h _)
    · exact h

@[simp] theorem State.postHvDisc_pins (s : State) (src : Nat) : (s.postHvDisc src).pins = s.pins := by
  simp [State.postHvDisc]

/-! ### Metering -/

@[simp] theorem State.modMtr_pins (s : State) (f : Metering → Metering) : (s.modMtr f).pins = s.pins := by
  simp [State.modMtr]

@[simp] theorem State.postMeter_pins (s : State) (code : Nat) (args : List (BitVec 64)) :
    (s.postMeter code args).pins = s.pins := by
  unfold State.postMeter
  dsimp only
  split <;> simp

@[simp] theorem State.mtrInput_pins (s : State) (k : Fin 10) (val : Word) (flags : BitVec 8) (ts : Stamp) :
    (s.mtrInput k val flags ts).pins = s.pins := by
  simp [State.mtrInput]

@[simp] theorem State.mtrCopy_pins (s : State) (tag : BitVec 16) (val : Word) (flags : BitVec 8) (ts : Stamp) :
    (s.mtrCopy tag val flags ts).pins = s.pins := by
  simp [State.mtrCopy]

@[simp] theorem State.mtrMode_pins (s : State) (m : Nat) : (s.mtrMode m).pins = s.pins := by simp [State.mtrMode]

@[simp] theorem State.mtrInstant_pins (s : State) (sync : Bool) (target : Nat) :
    (s.mtrInstant sync target).pins = s.pins := by
  simp [State.mtrInstant]

@[simp] theorem State.countExtrap_pins (s : State) (f : MtrFrame) : (s.countExtrap f).pins = s.pins := by
  simp [State.countExtrap]

@[simp] theorem State.setRange_pins (s : State) (m : Fin 3) (low : Bool) : (s.setRange m low).pins = s.pins := by
  simp [State.setRange]

@[simp] theorem State.phaseCurrent_pins (s : State) (m : Fin 3) (f : MtrFrame) :
    (s.phaseCurrent m f).2.pins = s.pins := by
  unfold State.phaseCurrent
  extract_lets xh low small n s'
  have hs' : s'.pins = s.pins := State.modMtr_pins ..
  generalize low = lowValue
  split
  · split
    · split
      · exact (State.setRange_pins ..).trans hs'
      · exact hs'
    · exact (State.setRange_pins ..).trans hs'
  · split
    · exact (State.setRange_pins ..).trans hs'
    · exact hs'

@[simp] theorem State.mtrEstEnter_pins (s : State) (m : Fin 3) (st : Nat) : (s.mtrEstEnter m st).pins = s.pins := by
  simp [State.mtrEstEnter]

@[simp] theorem State.mtrFallback_pins (s : State) : s.mtrFallback.pins = s.pins := by simp [State.mtrFallback]

@[simp] theorem State.mtrDrop_pins (s : State) (p : MtrTap → Bool) : (s.mtrDrop p).pins = s.pins := by
  simp [State.mtrDrop]

@[simp] theorem State.mtrEstOff_pins (s : State) : s.mtrEstOff.pins = s.pins := by simp [State.mtrEstOff]

@[simp] theorem State.mtrTapStart_pins (s : State) : s.mtrTapStart.pins = s.pins := by simp [State.mtrTapStart]

@[simp] theorem State.mtrTapDrop_pins (s : State) : s.mtrTapDrop.pins = s.pins := by simp [State.mtrTapDrop]

@[simp] theorem State.mtrTapEnd_pins (s : State) : s.mtrTapEnd.pins = s.pins := by simp [State.mtrTapEnd]

@[simp] theorem State.mtrPoints_pins (s : State) (t : MtrTap) : (s.mtrPoints t).pins = s.pins :=
  forAll_pins s fun m u => by
    split
    · simp
    · rfl

@[simp] theorem State.mtrBoundary_pins (s : State) : s.mtrBoundary.pins = s.pins := by simp [State.mtrBoundary]

@[simp] theorem State.spanFrame_pins (s : State) (f : MtrFrame) (valid : Bool) :
    (s.spanFrame f valid).pins = s.pins := by
  unfold State.spanFrame
  split <;> simp

@[simp] theorem State.setMacc_pins (s : State) (i n : Nat) : (s.setMacc i n).pins = s.pins := by simp [State.setMacc]

@[simp] theorem State.pulseCredit_pins (s : State) (n : Nat) : (s.pulseCredit n).pins = s.pins := by
  simp [State.pulseCredit]

@[simp] theorem State.credit_pins (s : State) (i : Fin 16) (amount : Nat) : (s.credit i amount).pins = s.pins := by
  simp [State.credit]

@[simp] theorem State.mtrWords_pins (s : State) (base : Nat) (ws : List Word) :
    (s.mtrWords base ws).pins = s.pins := by
  simp [State.mtrWords]

@[simp] theorem State.blockTotals_pins (s : State) (b : MtrBlock) : (s.blockTotals b).1.pins = s.pins := by
  simp [State.blockTotals]

@[simp] theorem State.blockFund_pins (s : State) (b : MtrBlock) : (s.blockFund b).1.pins = s.pins := by
  unfold State.blockFund
  split <;> simp

@[simp] theorem State.blockEnd_pins (s : State) (t : Time) : (s.blockEnd t).pins = s.pins := by
  unfold State.blockEnd
  dsimp only
  split <;> simp

@[simp] theorem State.gapFrame_pins (s : State) (f : MtrFrame) (k : Fin 10) : (s.gapFrame f k).pins = s.pins := by
  simp [State.gapFrame]

@[simp] theorem State.validFrame_pins (s : State) (f : MtrFrame) : (s.validFrame f).pins = s.pins := by
  unfold State.validFrame
  dsimp only
  split <;> simp

@[simp] theorem State.closeFrame_pins (s : State) (f : MtrFrame) : (s.closeFrame f).pins = s.pins := by
  unfold State.closeFrame
  dsimp only
  (repeat' split) <;> simp

@[simp] theorem State.mtrStart_pins (s : State) : s.mtrStart.pins = s.pins := by simp [State.mtrStart]

@[simp] theorem State.mtrStop_pins (s : State) : s.mtrStop.pins = s.pins := by simp [State.mtrStop]

@[simp] theorem State.setMtrEn_pins (s : State) (on : Bool) : (s.setMtrEn on).pins = s.pins := by
  simp [State.setMtrEn]

@[simp] theorem State.mtrClear_pins (s : State) : s.mtrClear.pins = s.pins := by
  unfold State.mtrClear
  dsimp only
  split <;> simp only [foldl_pins, State.credit_pins, State.set_pins, State.modMtr_pins, forAll_pins,
    State.setMacc_pins, implies_true]

@[simp] theorem State.setEpls_pins (s : State) (on : Bool) : (s.setEpls on).pins = s.pins := by simp [State.setEpls]

@[simp] theorem State.addUq_pins (s : State) (lo hi : Fld) (n : Nat) : (s.addUq lo hi n).pins = s.pins := by
  simp [State.addUq]

@[simp] theorem State.bkAdd_pins (s : State) (lo hi : Fld) (n : Option Nat) : (s.bkAdd lo hi n).pins = s.pins := by
  unfold State.bkAdd
  split <;> simp

@[simp] theorem State.bkClear_pins (s : State) : s.bkClear.pins = s.pins := by simp [State.bkClear]

/-! ### Conversion -/

@[simp] theorem State.modPair_pins (s : State) (p : Fin 8) (f : AdcPair → AdcPair) :
    (s.modPair p f).pins = s.pins := by
  simp [State.modPair]

@[simp] theorem State.modConv_pins (s : State) (p : Fin 8) (c : Fin 2) (f : AdcConv → AdcConv) :
    (s.modConv p c f).pins = s.pins := by
  simp [State.modConv]

@[simp] theorem State.enqueue_pins (s : State) (e : Fin 8) (tag : BitVec 16) (flags : BitVec 8) (ts : Stamp)
    (val : Word) :
    (s.enqueue e tag flags ts val).pins = s.pins := by
  unfold State.enqueue
  dsimp only
  (repeat' split) <;> simp

@[simp] theorem State.land_pins (s : State) (e : Fin 8) (queued smp mtr : Bool) (tag : BitVec 16)
    (flags : BitVec 8) (ts : Stamp) (val : Word) :
    (s.land e queued smp mtr tag flags ts val).pins = s.pins := by
  simp [State.land]

@[simp] theorem State.seqStart_pins (s : State) (p : Fin 8) (x : AdcPend) : (s.seqStart p x).pins = s.pins := by
  simp [State.seqStart]

@[simp] theorem State.adcFire_pins (s : State) (p : Fin 8) (q : Fin 4) (late coast : Bool) :
    (s.adcFire p q late coast).pins = s.pins := by
  unfold State.adcFire
  split <;> simp

@[simp] theorem State.triggerTaken_pins (s : State) (p : Fin 8) (q : Fin 4) (base : Nat) :
    (s.triggerTaken p q base).pins = s.pins := by
  simp [State.triggerTaken]

@[simp] theorem State.vanaCross_pins (s : State) (low : Bool) : (s.vanaCross low).pins = s.pins := by
  unfold State.vanaCross
  split <;> simp

@[simp] theorem State.landStep_pins (s : State) (p : Fin 8) (c : Fin 2) (x : AdcLand) (codes : List (BitVec 14)) :
    (s.landStep p c x codes).pins = s.pins := by
  unfold State.landStep
  split <;> simp

@[simp] theorem State.stopPairs_pins (s : State) (e : Fin 8) : (s.stopPairs e).pins = s.pins := by
  simp [State.stopPairs]

@[simp] theorem State.landPod_pins (s : State) (ch : Fin 64) (value : BitVec 24) (podq : BitVec 2) :
    (s.landPod ch value podq).pins = s.pins := by
  unfold State.landPod
  (repeat' split) <;> simp

/-! ### The grid unit and the MPPT engine -/

@[simp] theorem State.modGrid_pins (s : State) (f : Grid → Grid) : (s.modGrid f).pins = s.pins := by
  simp [State.modGrid]

@[simp] theorem State.postGrid_pins (s : State) (code : Nat) (args : List (BitVec 64)) :
    (s.postGrid code args).pins = s.pins := by
  simp [State.postGrid]

@[simp] theorem State.gridCommit_pins (s : State) (e : Fin 8) (ws : List (Nat × Word)) :
    (s.gridCommit e ws).pins = s.pins := by
  simp [State.gridCommit]

@[simp] theorem State.setTripped_pins (s : State) : s.setTripped.pins = s.pins := by simp [State.setTripped]

@[simp] theorem State.takeAction_pins (s : State) : s.takeAction.pins = s.pins := by simp [State.takeAction]

@[simp] theorem State.rideThrough_pins (s : State) (clr : Bool) : (s.rideThrough clr).pins = s.pins := by
  simp [State.rideThrough]

@[simp] theorem State.detect_pins (s : State) (t : Nat) (v : BitVec 64) : (s.detect t v).pins = s.pins := by
  simp [State.detect]

@[simp] theorem State.rocof_pins (s : State) : s.rocof.pins = s.pins := by simp [State.rocof]

@[simp] theorem State.window_pins (s : State) : s.window.pins = s.pins := by
  unfold State.window
  split <;> simp

@[simp] theorem State.vectorShift_pins (s : State) (c : Word) : (s.vectorShift c).pins = s.pins := by
  simp [State.vectorShift]

@[simp] theorem State.islClear_pins (s : State) : s.islClear.pins = s.pins := by simp [State.islClear]

@[simp] theorem State.estEnter_pins (s : State) (st : Nat) : (s.estEnter st).pins = s.pins := by simp [State.estEnter]

@[simp] theorem State.tapPoint_pins (s : State) (x : Tap) (len : Nat) : (s.tapPoint x len).pins = s.pins := by
  simp [State.tapPoint]

@[simp] theorem State.estTimers_pins (s : State) : s.estTimers.pins = s.pins := by simp [State.estTimers]

@[simp] theorem State.modTap_pins (s : State) (f : Tap → Tap) : (s.modTap f).pins = s.pins := by simp [State.modTap]

@[simp] theorem State.tapPhase_pins (s : State) (p at_ : Nat) : (s.tapPhase p at_).pins = s.pins := by
  simp [State.tapPhase]

@[simp] theorem State.tapBegin_pins (s : State) : s.tapBegin.pins = s.pins := by simp [State.tapBegin]

@[simp] theorem State.tapDrop_pins (s : State) : s.tapDrop.pins = s.pins := by simp [State.tapDrop]

@[simp] theorem State.tapAbandon_pins (s : State) (cause : Nat) : (s.tapAbandon cause).pins = s.pins := by
  unfold State.tapAbandon
  dsimp only
  split <;> simp

@[simp] theorem State.tapPhaseEnd_pins (s : State) : s.tapPhaseEnd.pins = s.pins := by
  unfold State.tapPhaseEnd
  split <;> simp

@[simp] theorem State.tapTick_pins (s : State) : s.tapTick.pins = s.pins := by
  unfold State.tapTick
  (repeat' split) <;> simp

@[simp] theorem State.modString_pins (s : State) (k : Fin 8) (f : MpptString → MpptString) :
    (s.modString k f).pins = s.pins := by
  simp [State.modString]

@[simp] theorem State.setVref_pins (s : State) (k : Fin 8) (v : Nat) : (s.setVref k v).pins = s.pins := by
  simp [State.setVref]

@[simp] theorem State.mpRestart_pins (s : State) (k : Fin 8) : (s.mpRestart k).pins = s.pins := by
  simp [State.mpRestart]

@[simp] theorem State.mpMove_pins (s : State) (k : Fin 8) (up : Option Bool) : (s.mpMove k up).pins = s.pins := by
  simp [State.mpMove]

@[simp] theorem State.mpDecide_pins (s : State) (k : Fin 8) (v c p : Int) (prev : Int × Int × Int) :
    (s.mpDecide k v c p prev).pins = s.pins := by
  simp [State.mpDecide]

@[simp] theorem State.mpStepEnd_pins (s : State) (k : Fin 8) : (s.mpStepEnd k).pins = s.pins := by
  unfold State.mpStepEnd
  dsimp only
  (repeat' split) <;> simp

@[simp] theorem State.mpTick_pins (s : State) (k : Fin 8) : (s.mpTick k).pins = s.pins := by
  unfold State.mpTick
  split <;> simp

@[simp] theorem State.timerEvents_pins (s : State) (old : Vector Nat 16) : (s.timerEvents old).pins = s.pins := by
  simp [State.timerEvents]

@[simp] theorem State.measure_pins (s : State) : s.measure.pins = s.pins := by
  simp only [State.measure, State.ite_pins, State.timerEvents_pins, State.modGrid_pins, State.set_pins, ite_self]

@[simp] theorem State.gridEval_pins (s : State) : s.gridEval.pins = s.pins := by simp [State.gridEval]

@[simp] theorem State.toTick_exclusive {s : State} (h : Exclusive s.pins) : Exclusive s.toTick.pins := by
  unfold State.toTick
  split <;> simp [h]

@[simp] theorem State.setGfEn_pins (s : State) (on : Bool) : (s.setGfEn on).pins = s.pins := by
  unfold State.setGfEn
  dsimp only
  (repeat' split) <;> simp

@[simp] theorem State.setMpEn_pins (s : State) (k : Fin 8) (on : Bool) : (s.setMpEn k on).pins = s.pins := by
  simp [State.setMpEn]

/-! ### Operands of a slot -/

@[simp] theorem State.readOp_pins (s : State) (e : Fin 8) (a : Nat) : (s.readOp e a).2.pins = s.pins := by
  unfold State.readOp
  (repeat' split) <;> simp

@[simp] theorem State.writeOp_pins (s : State) (e : Fin 8) (a : Nat) (w : TWord) :
    (s.writeOp e a w).pins = s.pins := by
  simp [State.writeOp]

@[simp] theorem State.markSat_pins (s : State) (e : Fin 8) (b : Bool) : (s.markSat e b).pins = s.pins := by
  simp [State.markSat]

@[simp] theorem State.readA_pins (s : State) (e : Fin 8) (w : Slot) : (s.readA e w).2.pins = s.pins := by
  unfold State.readA
  dsimp only
  split <;> simp

@[simp] theorem State.writeSat_pins (s : State) (e : Fin 8) (a : Nat) (x : Int) (taint : Bool) :
    (s.writeSat e a x taint).pins = s.pins := by
  simp [State.writeSat]

/-! ### Events of a leg -/

/-- The pins that a leg waits to drive are exclusive in every output mode (R239). -/
theorem State.pinsDue_exclusive (s : State) (l : Fin 64) : ((s.pinsDue l).1 && (s.pinsDue l).2.1) = false := by
  unfold State.pinsDue
  dsimp only
  split <;> simp

@[simp] theorem State.releaseLeg_exclusive {s : State} (h : Exclusive s.pins) (l : Fin 64) :
    Exclusive (s.releaseLeg l).pins := by
  simp [State.releaseLeg, h]

/-! ### Comparators, groups and the router -/

@[simp] theorem State.cmpSample_pins (s : State) (c : Fin 64) : (s.cmpSample c).pins = s.pins := by
  unfold State.cmpSample
  dsimp only
  (repeat' split) <;> simp

@[simp] theorem State.routeSample_pins (s : State) : s.routeSample.pins = s.pins := by simp [State.routeSample]

@[simp] theorem State.routeChoke_exclusive {s : State} (h : Exclusive s.pins) (r : Fin 128) :
    Exclusive (s.routeChoke r).pins := by
  simp [State.routeChoke, h]

@[simp] theorem State.routeLatch_pins (s : State) (r : Fin 128) : (s.routeLatch r).pins = s.pins := by
  simp [State.routeLatch]

@[simp] theorem State.routePost_pins (s : State) (r : Fin 128) (t : Time) : (s.routePost r t).pins = s.pins := by
  simp [State.routePost]

@[simp] theorem State.routeTrigger_pins (s : State) (r : Fin 128) : (s.routeTrigger r).pins = s.pins := by
  simp [State.routeTrigger]

@[simp] theorem State.requestLimp_pins (s : State) (e : Fin 8) : (s.requestLimp e).pins = s.pins := by
  simp [State.requestLimp]

@[simp] theorem State.routeAct_exclusive {s : State} (h : Exclusive s.pins) (x : Fin 128 × Time) :
    Exclusive (s.routeAct x).pins := by
  unfold State.routeAct
  dsimp only
  split <;> simp [h]

@[simp] theorem State.routeActs_exclusive {s : State} (h : Exclusive s.pins) (r : Fin 128) (action : Nat) :
    Exclusive (s.routeActs r action).pins := by
  unfold State.routeActs
  dsimp only
  (repeat' split) <;> simp +contextual [h]

/-! ### The commit unit -/

@[simp] theorem State.writeWords_pins (s : State) (e : Fin 8) (d : Entry) : (s.writeWords e d).pins = s.pins := by
  simp [State.writeWords]

@[simp] theorem State.readWords_pins (s : State) (e : Fin 8) (d : Entry) : (s.readWords e d).2.pins = s.pins := by
  obtain ⟨read, hread, hr⟩ := State.exists_readMem
  unfold State.readWords
  rw [hread]
  exact foldl_snd_pins _ _ fun _ _ => hr ..

@[simp] theorem State.applyDesc_pins (s : State) (e : Fin 8) (x : LEntry) : (s.applyDesc e x).2.pins = s.pins := by
  unfold State.applyDesc
  (repeat' split) <;> simp

@[simp] theorem State.modTxn_pins (s : State) (e : Fin 8) (p : Txn) (f : LEntry → LEntry) :
    (s.modTxn e p f).pins = s.pins := by
  simp [State.modTxn]

@[simp] theorem State.commitTxn_pins (s : State) (e : Fin 8) (n : BitVec 48) (p : Txn) :
    (s.commitTxn e n p).pins = s.pins := by
  unfold State.commitTxn
  dsimp only
  split <;> simp only [State.modEz_pins, State.set_pins, State.modTxn_pins, foldl_snd_pins,
    State.applyDesc_pins, foldl_pins, State.readEntry_pins, implies_true]

@[simp] theorem State.withhold_pins (s : State) (e : Fin 8) (ps : List Txn) : (s.withhold e ps).pins = s.pins := by
  simp [State.withhold]

@[simp] theorem State.commitTxns_pins (s : State) (e : Fin 8) (n : BitVec 48) (ps : List Txn) :
    (s.commitTxns e n ps).pins = s.pins := by
  induction ps generalizing s with
  | nil => rfl
  | cons p t ih =>
    unfold State.commitTxns
    split
    · exact State.withhold_pins ..
    · split <;> simp [ih]

@[simp] theorem State.reserveTxns_pins (s : State) (e : Fin 8) (ps : List Txn) :
    (s.reserveTxns e ps).pins = s.pins := by
  induction ps generalizing s with
  | nil => rfl
  | cons p t ih => simp [State.reserveTxns, ih]

@[simp] theorem State.reserve_pins (s : State) (e : Fin 8) : (s.reserve e).pins = s.pins := by simp [State.reserve]

@[simp] theorem State.issueRead_pins (s : State) (e : Fin 8) (preload : Bool) (n : BitVec 48) :
    (s.issueRead e preload n).pins = s.pins := by
  unfold State.issueRead
  split <;> simp

@[simp] theorem State.markLate_pins (s : State) (e : Fin 8) (n : BitVec 48) : (s.markLate e n).pins = s.pins :=
  foldl_pins _ s fun u p => by split <;> simp

@[simp] theorem State.linkHoldEnds_pins (s : State) (e : Fin 8) : (s.linkHoldEnds e).pins = s.pins := by
  unfold State.linkHoldEnds
  split <;> simp

@[simp] theorem State.ledgerStep_pins (s : State) (e : Fin 8) (preload held : Bool) (n : BitVec 48) :
    (s.ledgerStep e preload held n).pins = s.pins := by
  simp [State.ledgerStep]

@[simp] theorem State.outReal_exclusive {s : State} (h : Exclusive s.pins) (e : Fin 8) (a : Nat) (w : Word) :
    Exclusive (s.outReal e a w).pins := by
  unfold State.outReal
  split <;> simp [h]

@[simp] theorem State.wordReal_exclusive {s : State} (h : Exclusive s.pins) (e : Fin 8) (a : Nat) (w : Word) :
    Exclusive (s.wordReal e a w).pins := by
  unfold State.wordReal
  (repeat' split) <;> simp [h]

@[simp] theorem State.commitPass_exclusive {s : State} (h : Exclusive s.pins) (e : Fin 8) (p : Pass) :
    Exclusive (s.commitPass e p).pins := by
  simp +contextual [State.commitPass, h]

@[simp] theorem State.closeFault_pins (s : State) (e : Fin 8) (c : FaultClass) (i : Option Nat) :
    (s.closeFault e c i).pins = s.pins := by
  unfold State.closeFault
  (repeat' split) <;> simp

@[simp] theorem State.closeSlip_pins (s : State) (e : Fin 8) (n : BitVec 48) : (s.closeSlip e n).pins = s.pins := by
  simp [State.closeSlip]

@[simp] theorem State.endPhold_pins (s : State) (e : Fin 8) : (s.endPhold e).pins = s.pins := by simp [State.endPhold]

@[simp] theorem State.clearMisses_pins (s : State) (e : Fin 8) : (s.clearMisses e).pins = s.pins := by
  simp [State.clearMisses]

@[simp] theorem State.spendRequests_pins (s : State) (e : Fin 8) : (s.spendRequests e).pins = s.pins := by
  simp [State.spendRequests]

@[simp] theorem State.enterHrd_exclusive {s : State} (h : Exclusive s.pins) (e : Fin 8) (wasLimp : Bool) :
    Exclusive (s.enterHrd e wasLimp).pins := by
  unfold State.enterHrd
  extract_lets half o ramp s₁ s₂
  have h₁ : Exclusive s₁.pins := by simpa [s₁] using h
  have h₂ : Exclusive s₂.pins := State.ownedLegs_exclusive h₁ e fun l u hu =>
    .either hu (State.setCause_exclusive hu l _)
  exact h₂.when (by simpa using h₂)

@[simp] theorem State.enterLimp_exclusive {s : State} (h : Exclusive s.pins) (e : Fin 8) (st cause : Nat) :
    Exclusive (s.enterLimp e st cause).pins := by
  simp [State.enterLimp, h]

@[simp] theorem State.hrdStep_exclusive {s : State} (h : Exclusive s.pins) (e : Fin 8) :
    Exclusive (s.hrdStep e).pins := by
  unfold State.hrdStep
  dsimp only
  (repeat' split) <;> simp +contextual [h]

@[simp] theorem State.release_pins (s : State) (e : Fin 8) : (s.release e).pins = s.pins := by simp [State.release]

@[simp] theorem State.dbTake_pins (s : State) (e : Fin 8) (t : Time) : (s.dbTake e t).pins = s.pins := by
  simp [State.dbTake]

@[simp] theorem State.resumeEasel_pins (s : State) (e : Fin 8) : (s.resumeEasel e).pins = s.pins := by
  simp [State.resumeEasel]

@[simp] theorem State.swapDownbeat_pins (s : State) (e : Fin 8) : (s.swapDownbeat e).pins = s.pins := by
  simp [State.swapDownbeat]

@[simp] theorem State.swapDue_pins (s : State) : s.swapDue.pins = s.pins := by simp [State.swapDue]

@[simp] theorem State.closePass_exclusive {s : State} (h : Exclusive s.pins) (e : Fin 8) (held : Bool) :
    Exclusive (s.closePass e held).pins := by
  unfold State.closePass
  extract_lets cl good wasHrd s₁ s₂ s₃ target s₄ toHrd real resid s₅ s₆ s₇ s₈
  have h₂ : s₂.pins = s.pins := by
    simp only [s₂, s₁]
    generalize cl = outcome
    split <;> simp
  have h₄ : Exclusive s₄.pins := by simpa [s₄, s₃, h₂] using h
  have h₅ : Exclusive s₅.pins := by simpa [s₅] using h₄
  have h₆ : Exclusive s₆.pins := by
    simp only [s₆]
    generalize cl = outcome
    split
    · exact .either h₄ (State.commitPass_exclusive h₅ e _)
    · exact h₄
  have h₈ : Exclusive s₈.pins := by simpa [s₈, s₇] using h₆
  generalize target = entered
  split
  · exact State.enterLimp_exclusive h₈ e _ _
  · exact h₈.when (State.hrdStep_exclusive h₈ e)

@[simp] theorem State.retireQueue_pins (s : State) (e : Fin 8) : (s.retireQueue e).pins = s.pins := by
  unfold State.retireQueue
  dsimp only
  split <;> simp

@[simp] theorem State.downbeat_exclusive {s : State} (h : Exclusive s.pins) (e : Fin 8) (t : Time) :
    Exclusive (s.downbeat e t).pins := by
  simp [State.downbeat, h]

@[simp] theorem State.fireDownbeat_exclusive {s : State} (h : Exclusive s.pins) (e : Fin 8) :
    Exclusive (s.fireDownbeat e).pins := by
  unfold State.fireDownbeat
  dsimp only
  (repeat' split) <;> simp [h]

@[simp] theorem State.preloadAt_pins (s : State) (e : Fin 8) : (s.preloadAt e).pins = s.pins := by
  simp [State.preloadAt]

@[simp] theorem State.firePreload_exclusive {s : State} (h : Exclusive s.pins) (e : Fin 8) :
    Exclusive (s.firePreload e).pins := by
  simp [State.firePreload, h]

@[simp] theorem State.commitPoint_exclusive {s : State} (h : Exclusive s.pins) (e : Fin 8) (op : Nat) :
    Exclusive (s.commitPoint e op).pins := by
  unfold State.commitPoint
  split <;> simp [h]

@[simp] theorem State.requestHrd_pins (s : State) (e : Fin 8) : (s.requestHrd e).pins = s.pins := by
  simp [State.requestHrd]

@[simp] theorem State.requestRelease_pins (s : State) (e : Fin 8) : (s.requestRelease e).pins = s.pins := by
  simp [State.requestRelease]

/-! ### Uplink words and link registers -/

@[simp] theorem State.discardWord_pins (s : State) (p : Fin 16) : (s.discardWord p).pins = s.pins := by
  simp [State.discardWord]

@[simp] theorem State.receive_pins (s : State) (p : Fin 16) (x : BitVec 64) {f : BitVec 32 → State → State}
    (hf : ∀ w u, (f w u).pins = u.pins) :
    (s.receive p x f).pins = s.pins := by
  simp [State.receive, hf]

@[simp] theorem State.receiveControl_pins (s : State) (p : Fin 16) (x : BitVec 64) (type : Nat)
    {f : BitVec 32 → State → State} (hf : ∀ w u, (f w u).pins = u.pins) :
    (s.receiveControl p x type f).pins = s.pins := by
  simp [State.receiveControl, hf]

@[simp] theorem State.measureWord_pins (s : State) (p : Fin 16) (c : Fin 4) (podq : Nat) :
    (s.measureWord p c podq).pins = s.pins := by
  simp [State.measureWord]

@[simp] theorem State.realignWord_pins (s : State) (p : Fin 16) (c : Fin 4) (podq : Nat) :
    (s.realignWord p c podq).pins = s.pins := by
  simp [State.realignWord]

@[simp] theorem State.powerControl_pins (s : State) (p : Fin 16) (vstore : Nat) :
    (s.powerControl p vstore).pins = s.pins := by
  simp [State.powerControl]

@[simp] theorem State.accessEnd_pins (s : State) (p : Fin 16) : (s.accessEnd p).pins = s.pins := by
  simp [State.accessEnd]

@[simp] theorem State.podAlarm_pins (s : State) (p : Fin 16) (bits_ : Nat) (burst : Bool) :
    (s.podAlarm p bits_ burst).pins = s.pins := by
  simp [State.podAlarm]

@[simp] theorem State.access_pins (s : State) (p : Fin 16) (ok : Bool) (cmd addr data : Nat) :
    (s.access p ok cmd addr data).pins = s.pins := by
  simp [State.access]

/-! ### Daderal pods -/

@[simp] theorem State.modPod_pins (s : State) (p : Fin 16) (f : Pod → Pod) : (s.modPod p f).pins = s.pins := by
  simp [State.modPod]

@[simp] theorem State.modPodCh_pins (s : State) (p : Fin 16) (c : Fin 4) (f : PodCh → PodCh) :
    (s.modPodCh p c f).pins = s.pins := by
  simp [State.modPodCh]

@[simp] theorem State.podSays_pins (s : State) (p : Fin 16) (w : PodWord) : (s.podSays p w).pins = s.pins := by
  simp [State.podSays]

/-! ### RUN, owners, easel reset and rings -/

@[simp] theorem State.setRun_pins (s : State) (e : Fin 8) : (s.setRun e).pins = s.pins := by simp [State.setRun]

@[simp] theorem State.clearRun_pins (s : State) (e : Fin 8) : (s.clearRun e).pins = s.pins := by
  unfold State.clearRun
  dsimp only
  (repeat' split) <;> simp

@[simp] theorem State.auxRequestGone_pins (s : State) (a k n : Nat) : (s.auxRequestGone a k n).pins = s.pins := by
  unfold State.auxRequestGone
  split <;> simp

@[simp] theorem State.ownerMoved_exclusive {s : State} (h : Exclusive s.pins) (a k n : Nat) :
    Exclusive (s.ownerMoved a k n).pins := by
  simp [State.ownerMoved, h]

@[simp] theorem State.setOwners_exclusive {s : State} (h : Exclusive s.pins) (a new : Nat) :
    Exclusive (s.setOwners a new).pins := by
  unfold State.setOwners
  refine State.hostErrors_exclusive (foldl_exclusive _ (by simpa using h) fun u k hu => ?_) _
  split
  · exact hu
  · exact State.ownerMoved_exclusive hu a k _

@[simp] theorem State.writeOwners_exclusive {s : State} (h : Exclusive s.pins) (by_ : Agent) (a : Nat)
    (value : BitVec 32) :
    Exclusive (s.writeOwners by_ a value).pins := by
  unfold State.writeOwners
  dsimp only
  (repeat' split) <;> simp [h]

@[simp] theorem State.unpick_pins (s : State) (e : Fin 8) : (s.unpick e).pins = s.pins := by simp [State.unpick]

@[simp] theorem State.resetBegin_exclusive {s : State} (h : Exclusive s.pins) (e : Fin 8) (c : ResetCause) :
    Exclusive (s.resetBegin e c).pins := by
  unfold State.resetBegin
  dsimp only
  (repeat' split) <;> simp +contextual [h]

@[simp] theorem State.restore_pins (s : State) (a mask : Nat) : (s.restore a mask).pins = s.pins := by
  simp [State.restore]

@[simp] theorem State.restoreWindow_pins (s : State) (e : Fin 8) : (s.restoreWindow e).pins = s.pins := by
  simp [State.restoreWindow]

@[simp] theorem State.restoreLeg_exclusive {s : State} (h : Exclusive s.pins) (l : Fin 64) :
    Exclusive (s.restoreLeg l).pins := by
  unfold State.restoreLeg
  rw [State.clearCause_pins, State.modLeg_pins_update, State.clearDuty_pins, foldl_pins]
  · exact h.update l rfl
  · intro u f
    split <;> simp

@[simp] theorem State.restoreConv_pins (s : State) (e : Fin 8) : (s.restoreConv e).pins = s.pins := by
  simp [State.restoreConv]

@[simp] theorem State.restartStrings_pins (s : State) (e : Fin 8) : (s.restartStrings e).pins = s.pins := by
  simp [State.restartStrings]

@[simp] theorem State.resetEnd_exclusive {s : State} (h : Exclusive s.pins) (e : Fin 8) (c : ResetCause) :
    Exclusive (s.resetEnd e c).pins := by
  simp +contextual [State.resetEnd, h]

@[simp] theorem State.testResume_pins (s : State) (e : Fin 8) : (s.testResume e).pins = s.pins := by
  simp [State.testResume]

@[simp] theorem State.setF0En_pins (s : State) (on : Bool) : (s.setF0En on).pins = s.pins := by
  simp only [State.setF0En, State.ite_pins, State.postF0_pins, State.pins_mk, legPins_legs, State.set_pins,
    State.setFlag_pins, ite_self]

@[simp] theorem State.flrEasel_exclusive {s : State} (h : Exclusive s.pins) (e : Fin 8) :
    Exclusive (s.flrEasel e).pins := by
  simp [State.flrEasel, h]

@[simp] theorem State.flrF0_pins (s : State) : s.flrF0.pins = s.pins := by
  unfold State.flrF0
  dsimp only
  split <;> simp

/-! ### DMA as it is served -/

@[simp] theorem State.issuePoll_pins (s : State) (e : Fin 8) : (s.issuePoll e).pins = s.pins := by
  simp [State.issuePoll]

@[simp] theorem State.issueF0Poll_pins (s : State) : s.issueF0Poll.pins = s.pins := by simp [State.issueF0Poll]

@[simp] theorem State.request_pins (s : State) (g : Fin 9) (rank : Nat) : (s.request g rank).pins = s.pins := by
  unfold State.request
  (repeat' split) <;> simp

@[simp] theorem Turns.begin_pins (x : Turns) (g : Fin 9) (rank : Nat) : (x.begin_ g rank).s.pins = x.s.pins := by
  simp [Turns.begin_]

@[simp] theorem Turns.take_pins (f : Fin 9) (rank : Nat) (x : Turns) (g : Fin 9) :
    (Turns.take f rank x g).s.pins = x.s.pins := by
  unfold Turns.take
  extract_lets y z
  have hz : z.s.pins = x.s.pins := by
    simp only [z, y]
    split
    · rfl
    split
    · exact Turns.begin_pins ..
    split
    · exact Turns.begin_pins ..
    · rfl
  split
  · simpa using hz
  · exact hz

@[simp] theorem Turns.rounds_pins (f : Fin 9) (rank n : Nat) (x : Turns) :
    (Turns.rounds f rank n x).s.pins = x.s.pins := by
  induction n generalizing x with
  | zero => simp [Turns.rounds]
  | succ n ih =>
    have ht : ∀ gs : List (Fin 9), (gs.foldl (Turns.take f rank) x).s.pins = x.s.pins := fun gs =>
      foldl_keeps (P := fun y : Turns => y.s.pins = x.s.pins) (fun y g hy => (Turns.take_pins f rank y g).trans hy) gs x rfl
    unfold Turns.rounds
    split
    · rfl
    · rw [ih, ht]

@[simp] theorem State.serve_pins (s : State) (f : Fin 9) (rank : Nat) : (s.serve f rank).pins = s.pins := by
  simp [State.serve]

@[simp] theorem State.issueReads_exclusive {s : State} (h : Exclusive s.pins) (e : Fin 8) :
    Exclusive (s.issueReads e).pins := by
  unfold State.issueReads
  dsimp only
  (repeat' split) <;> simp [h]

/-! ### Supplies, device reset, boot and supervision -/

@[simp] theorem State.checkpoint_pins (s : State) (e : Fin 8) : (s.checkpoint e).pins = s.pins := by
  simp [State.checkpoint]

@[simp] theorem State.holdPass_pins (s : State) (e : Fin 8) : (s.holdPass e).pins = s.pins := by
  unfold State.holdPass
  split <;> simp

@[simp] theorem State.holdEasel_pins (s : State) (e : Fin 8) : (s.holdEasel e).pins = s.pins := by
  simp [State.holdEasel]

@[simp] theorem State.holdEnter_exclusive {s : State} (h : Exclusive s.pins) : Exclusive s.holdEnter.pins := by
  unfold State.holdEnter
  rw [State.modSup_pins, forAll_pins _ fun e u => State.holdEasel_pins u e]
  refine forAll_exclusive (by simpa using h) fun l u hu => ?_
  split
  · exact hu
  · exact State.setCause_exclusive hu l _

@[simp] theorem State.holdEnd_pins (s : State) : s.holdEnd.pins = s.pins := by
  unfold State.holdEnd
  rw [forAll_pins]
  · simp
  · intro l u
    split
    · split <;> simp
    · simp

@[simp] theorem State.setSupply_pins (s : State) (k : Fin 4) (x : SupplyLevel) (restored : Bool) :
    (s.setSupply k x restored).pins = s.pins := by
  simp [State.setSupply]

@[simp] theorem State.supplyLowNow_exclusive {s : State} (h : Exclusive s.pins) (k : Fin 4) :
    Exclusive (s.supplyLowNow k).pins := by
  simp [State.supplyLowNow, h]

@[simp] theorem State.supplyRestored_pins (s : State) (k : Fin 4) : (s.supplyRestored k).pins = s.pins := by
  simp [State.supplyRestored]

@[simp] theorem State.resumeInterval_exclusive {s : State} (h : Exclusive s.pins) (k : Fin 4) :
    Exclusive (s.resumeInterval k).pins := by
  unfold State.resumeInterval
  split <;> simp [h]

@[simp] theorem State.wiped_exclusive (s : State) : Exclusive s.wiped.pins := by
  intro l
  simp [State.wiped, legPins]

@[simp] theorem State.resetDevice_exclusive (s : State) (c : DeviceResetCause) :
    Exclusive (s.resetDevice c).pins := by
  simp [State.resetDevice]

@[simp] theorem State.dwdResets_exclusive {s : State} (h : Exclusive s.pins) : Exclusive s.dwdResets.pins := by
  unfold State.dwdResets
  split <;> simp [h]

@[simp] theorem State.setVbat_pins (s : State) (mv : Nat) : (s.setVbat mv).pins = s.pins := by simp [State.setVbat]

@[simp] theorem State.leaveReset_exclusive {s : State} (h : Exclusive s.pins) : Exclusive s.leaveReset.pins := by
  unfold State.leaveReset
  dsimp only
  (repeat' split) <;> simp [h]

@[simp] theorem State.toVbatTest_exclusive {s : State} (h : Exclusive s.pins) : Exclusive s.toVbatTest.pins := by
  unfold State.toVbatTest
  split <;> simp [h]

@[simp] theorem State.wdFault_exclusive {s : State} (h : Exclusive s.pins) (w : Fin 9) (code : Nat) :
    Exclusive (s.wdFault w code).pins := by
  unfold State.wdFault
  split <;> simp [h]

@[simp] theorem State.wdLate_exclusive {s : State} (h : Exclusive s.pins) (w : Fin 9) :
    Exclusive (s.wdLate w).pins := by
  simp [State.wdLate, h]

@[simp] theorem State.wdError_exclusive {s : State} (h : Exclusive s.pins) (w : Fin 9) :
    Exclusive (s.wdError w).pins := by
  unfold State.wdError
  split <;> simp [h]

@[simp] theorem State.wdEnable_exclusive {s : State} (h : Exclusive s.pins) (w : Fin 9) :
    Exclusive (s.wdEnable w).pins := by
  unfold State.wdEnable
  split <;> simp [h]

@[simp] theorem State.wdKey_exclusive {s : State} (h : Exclusive s.pins) (w : Fin 9) (key : BitVec 32) :
    Exclusive (s.wdKey w key).pins := by
  unfold State.wdKey
  dsimp only
  (repeat' split) <;> simp [h]

@[simp] theorem State.wdReach_exclusive {s : State} (h : Exclusive s.pins) (w : Fin 9) :
    Exclusive (s.wdReach w).pins := by
  simp [State.wdReach, h]

@[simp] theorem State.lockLater_pins (s : State) (bits : BitVec 16) : (s.lockLater bits).pins = s.pins := by
  simp [State.lockLater]

@[simp] theorem State.keyProg_pins (s : State) (slot : Fin 4) : (s.keyProg slot).pins = s.pins := by
  simp [State.keyProg]

@[simp] theorem State.keyRevoke_pins (s : State) (slot : Fin 4) : (s.keyRevoke slot).pins = s.pins := by
  simp [State.keyRevoke]

@[simp] theorem State.debugOpen_exclusive {s : State} (h : Exclusive s.pins) (on : Bool) :
    Exclusive (s.debugOpen on).pins := by
  unfold State.debugOpen
  split <;> simp [h]

@[simp] theorem State.debugBlow_pins (s : State) : s.debugBlow.pins = s.pins := by simp [State.debugBlow]

/-! ### Events of the phase wheel -/

theorem State.reachAdvance_exclusive {s u : State} (h : Exclusive s.pins) {target : Nat}
    (hu : s.reachAdvance target = some u) :
    Exclusive u.pins := by
  unfold State.reachAdvance at hu
  split at hu
  · cases hu; exact h
  · split at hu
    · cases hu
    · cases hu; exact State.elapse_exclusive h _

@[simp] theorem State.angleTrigger_pins (s : State) (p : Fin 8) (q : Fin 4) (late : Bool) :
    (s.angleTrigger p q late).pins = s.pins := by
  unfold State.angleTrigger
  split <;> simp

/-! ### Access to registers -/

@[simp] theorem State.putRaw_pins (s : State) (t : Nat) (v : Reg) : (s.putRaw t v).pins = s.pins := by
  simp [State.putRaw]

/-! ### Tile execution -/

@[simp] theorem State.startRun_pins (s : State) (t : Fin 16) (e : Fin 8) (i : Nat) (p : Pass) :
    (s.startRun t e i p).pins = s.pins := by
  simp [State.startRun]

@[simp] theorem State.countHu_pins (s : State) (t : Fin 16) (r : Run) : (s.countHu t r).pins = s.pins := by
  unfold State.countHu
  split <;> simp

@[simp] theorem State.runFinished_pins (s : State) (r : Run) : (s.runFinished r).pins = s.pins := by
  unfold State.runFinished
  dsimp only
  split <;> simp

@[simp] theorem State.slotDone_pins (s : State) (t : Fin 16) (r : Run) : (s.slotDone t r).pins = s.pins := by
  simp [State.slotDone]

/-- What a slot word does to the pins is what its effect does: a completed run and an image error keep them exclusive. -/
@[simp] theorem State.slot_exclusive {s : State} (h : Exclusive s.pins) (t : Fin 16) (op : Nat)
    {act : Fin 8 → Slot → State → State} (ha : ∀ e w u, (act e w u).pins = u.pins) :
    Exclusive (s.slot t op act).pins := by
  unfold State.slot
  dsimp only
  split
  · split
    · split
      · simpa using h
      split
      · simpa [ha] using h
      · exact State.hostErrors_exclusive (by simpa using h) _
    · exact h
  · exact h

@[simp] theorem State.unary_pins (s : State) (e : Fin 8) (w : Slot) (f : Int → Int) :
    (s.unary e w f).pins = s.pins := by
  simp [State.unary]

@[simp] theorem State.binary_pins (s : State) (e : Fin 8) (w : Slot) (f : Int → Int → Int) :
    (s.binary e w f).pins = s.pins := by
  simp [State.binary]

@[simp] theorem State.compare_pins (s : State) (t : Fin 16) (e : Fin 8) (w : Slot) (f : Int → Int → Bool) :
    (s.compare t e w f).pins = s.pins := by
  simp [State.compare]

@[simp] theorem State.accumulate_pins (s : State) (t : Fin 16) (e : Fin 8) (w : Slot) (keep : Bool)
    (f : Int → Int → Int) :
    (s.accumulate t e w keep f).pins = s.pins := by
  simp [State.accumulate]

@[simp] theorem State.bounds_pins (s : State) (e : Fin 8) (w : Slot) : (s.bounds e w).2.2.pins = s.pins := by
  simp [State.bounds]

/-! ### Commands -/

section

variable {s : State} (h : Exclusive s.pins)
include h

@[simp] theorem execImageLoad_exclusive (a : Agent) : NextExclusive (execImageLoad a s) := by simp [execImageLoad, h]

@[simp] theorem execImageVerifyComplete_exclusive : NextExclusive (execImageVerifyComplete s) := by
  unfold execImageVerifyComplete
  split <;> simp [h]

@[simp] theorem execSwap_exclusive (a : Agent) : NextExclusive (execSwap a s) := by
  unfold execSwap
  dsimp only
  (repeat' split) <;> simp [h]

@[simp] theorem execBtestAccess_exclusive (e : Fin 8) (sub : Fin 16) (defect : BitVec 48) :
    NextExclusive (execBtestAccess e sub defect s) := by
  simp [execBtestAccess, h]

@[simp] theorem execLedgerAbort_exclusive (e : Fin 8) (a : Agent) : NextExclusive (execLedgerAbort e a s) := by
  simp [execLedgerAbort, h]

@[simp] theorem execLdgSelWrite_exclusive (a : Agent) (value : BitVec 32) :
    NextExclusive (execLdgSelWrite a value s) := by
  simp [execLdgSelWrite, h]

@[simp] theorem execRingEn_exclusive (e : Fin 8) (a : Agent) (on : Bool) : NextExclusive (execRingEn e a on s) := by
  simp [execRingEn, h]

@[simp] theorem execLinkFault_exclusive (cause : LinkCause) : NextExclusive (execLinkFault cause s) := by
  unfold execLinkFault
  split <;> simp [h]

@[simp] theorem execLinkUp_exclusive (speed width : BitVec 2) (bme msixEn msixMask payload256 : BitVec 9) :
    NextExclusive (execLinkUp speed width bme msixEn msixMask payload256 s) := by
  simp [execLinkUp, h]

@[simp] theorem execWheelEn_exclusive (a : Agent) (on : Bool) : NextExclusive (execWheelEn a on s) := by
  simp [execWheelEn, h]

@[simp] theorem execLimpEdge_exclusive : NextExclusive (execLimpEdge s) := by
  unfold execLimpEdge
  split <;> simp [h]

@[simp] theorem execCheckTrigger_exclusive (e : Fin 8) : NextExclusive (execCheckTrigger e s) := by
  unfold execCheckTrigger
  split <;> simp [h]

@[simp] theorem execAuxRequestApply_exclusive : NextExclusive (execAuxRequestApply s) := by
  simp [execAuxRequestApply, h]

@[simp] theorem execTachEdge_exclusive (n : Fin 4) (level : Bool) : NextExclusive (execTachEdge n level s) := by
  simp [execTachEdge, h]

@[simp] theorem execFcsSample_exclusive (n : Fin 4) (code : BitVec 10) : NextExclusive (execFcsSample n code s) := by
  unfold execFcsSample
  dsimp only
  (repeat' split) <;> simp [h]

@[simp] theorem execSpinTEnd_exclusive (n : Fin 4) : NextExclusive (execSpinTEnd n s) := by simp [execSpinTEnd, h]

@[simp] theorem execTlossTEnd_exclusive (n : Fin 4) : NextExclusive (execTlossTEnd n s) := by simp [execTlossTEnd, h]

@[simp] theorem execPauseTEnd_exclusive (n : Fin 4) : NextExclusive (execPauseTEnd n s) := by simp [execPauseTEnd, h]

@[simp] theorem execFpwmPeriodStart_exclusive (n : Fin 4) : NextExclusive (execFpwmPeriodStart n s) := by
  simp [execFpwmPeriodStart, h]

@[simp] theorem execPullTEnd_exclusive (n : Fin 8) : NextExclusive (execPullTEnd n s) := by simp [execPullTEnd, h]

@[simp] theorem execHsLeadEnd_exclusive (n : Fin 8) : NextExclusive (execHsLeadEnd n s) := by simp [execHsLeadEnd, h]

@[simp] theorem execCoilTurnOff_exclusive (n : Fin 8) : NextExclusive (execCoilTurnOff n s) :=
  NextExclusive.ite ((nextExclusive_next _).2 (State.awaitOff_exclusive (State.reachCoarse_exclusive h) n 4))
    ((nextExclusive_next s).2 h)

@[simp] theorem execCoilForceOff_exclusive (n : Fin 8) : NextExclusive (execCoilForceOff n s) := by
  simp [execCoilForceOff, h]

@[simp] theorem execDschTrigger_exclusive (k : Fin 2) : NextExclusive (execDschTrigger k s) := by
  unfold execDschTrigger
  split <;> simp [h]

@[simp] theorem execDschCut_exclusive : NextExclusive (execDschCut s) := by simp [execDschCut, h]

@[simp] theorem execDschCutClear_exclusive : NextExclusive (execDschCutClear s) := by simp [execDschCutClear, h]

@[simp] theorem execDschFail_exclusive : NextExclusive (execDschFail s) := by simp [execDschFail, h]

@[simp] theorem execDschClr_exclusive (a : Agent) : NextExclusive (execDschClr a s) := by simp [execDschClr, h]

@[simp] theorem execFrameInstant_exclusive : NextExclusive (execFrameInstant s) := by
  unfold execFrameInstant
  split <;> simp [h]

@[simp] theorem execFrameClose_exclusive : NextExclusive (execFrameClose s) := by
  unfold execFrameClose
  split <;> simp [h]

@[simp] theorem execMtrEstTimeout_exclusive (m : Fin 3) : NextExclusive (execMtrEstTimeout m s) := by
  unfold execMtrEstTimeout
  split <;> simp [h]

@[simp] theorem execMtrEn_exclusive (a : Agent) (on : Bool) : NextExclusive (execMtrEn a on s) := by
  simp [execMtrEn, h]

@[simp] theorem execMtrClr_exclusive (a : Agent) : NextExclusive (execMtrClr a s) := by simp [execMtrClr, h]

@[simp] theorem execEplsPulseStart_exclusive : NextExclusive (execEplsPulseStart s) := by
  unfold execEplsPulseStart
  (repeat' split) <;> simp [h]

@[simp] theorem execEplsPulseEnd_exclusive : NextExclusive (execEplsPulseEnd s) := by
  unfold execEplsPulseEnd
  split <;> simp [h]

@[simp] theorem execBkSample_exclusive (line neutral : Int) (vbatMv : Nat) :
    NextExclusive (execBkSample line neutral vbatMv s) := by
  simp [execBkSample, h]

@[simp] theorem execBkClr_exclusive (a : Agent) : NextExclusive (execBkClr a s) := by simp [execBkClr, h]

@[simp] theorem execAdcTrigger_exclusive (p : Fin 8) (q : Fin 4) : NextExclusive (execAdcTrigger p q s) := by
  unfold execAdcTrigger
  split <;> simp [h]

@[simp] theorem execSequenceStart_exclusive (p : Fin 8) (c : Fin 2) : NextExclusive (execSequenceStart p c s) := by
  unfold execSequenceStart
  (repeat' split) <;> simp [h]

@[simp] theorem execAdcStepLand_exclusive (p : Fin 8) (c : Fin 2) (codes : List (BitVec 14)) :
    NextExclusive (execAdcStepLand p c codes s) := by
  unfold execAdcStepLand
  split <;> simp [h]

@[simp] theorem execCal_exclusive (p : Fin 8) (a : Agent) : NextExclusive (execCal p a s) := by simp [execCal, h]

@[simp] theorem execCalDone_exclusive (p : Fin 8) (found : Option (BitVec 32 × BitVec 32)) :
    NextExclusive (execCalDone p found s) := by
  unfold execCalDone
  (repeat' split) <;> simp [h]

@[simp] theorem execEvaluationTick_exclusive : NextExclusive (execEvaluationTick s) := by simp [execEvaluationTick, h]

@[simp] theorem execPointAsserted_exclusive (k : Fin 16) : NextExclusive (execPointAsserted k s) := by
  simp [execPointAsserted, h]

@[simp] theorem execMeasAgeTrip_exclusive : NextExclusive (execMeasAgeTrip s) := by simp [execMeasAgeTrip, h]

@[simp] theorem execTapStart_exclusive : NextExclusive (execTapStart s) := by simp [execTapStart, h]

@[simp] theorem execTapPhaseEnd_exclusive : NextExclusive (execTapPhaseEnd s) := by simp [execTapPhaseEnd, h]

@[simp] theorem execEstStarve_exclusive : NextExclusive (execEstStarve s) := by simp [execEstStarve, h]

@[simp] theorem execEstStale_exclusive : NextExclusive (execEstStale s) := by simp [execEstStale, h]

@[simp] theorem execMpptStep_exclusive (k : Fin 8) : NextExclusive (execMpptStep k s) := by simp [execMpptStep, h]

@[simp] theorem execGfEn_exclusive (a : Agent) (on : Bool) : NextExclusive (execGfEn a on s) := by simp [execGfEn, h]

@[simp] theorem execTapNow_exclusive (a : Agent) : NextExclusive (execTapNow a s) := by simp [execTapNow, h]

@[simp] theorem execTripClr_exclusive (a : Agent) : NextExclusive (execTripClr a s) := by simp [execTripClr, h]

@[simp] theorem execIslClr_exclusive (a : Agent) : NextExclusive (execIslClr a s) := by simp [execIslClr, h]

@[simp] theorem execMpEn_exclusive (k : Fin 8) (a : Agent) (on : Bool) : NextExclusive (execMpEn k a on s) := by
  simp [execMpEn, h]

@[simp] theorem execUpdatePosition_exclusive (l : Fin 64) : NextExclusive (execUpdatePosition l s) := by
  simp [execUpdatePosition, h]

@[simp] theorem execDriveEdge_exclusive (l : Fin 64) : NextExclusive (execDriveEdge l s) := by
  unfold execDriveEdge
  (repeat' split) <;> simp [h]

@[simp] theorem execDeadTimeElapsed_exclusive (l : Fin 64) : NextExclusive (execDeadTimeElapsed l s) := by
  have ht := State.reachAge_exclusive h (s.pinsDue l).2.2
  unfold execDeadTimeElapsed
  dsimp only
  refine NextExclusive.ite ?_ ((nextExclusive_next s).2 h)
  rw [nextExclusive_next]
  split
  · exact ht
  · exact State.setPins_exclusive ht l (s.pinsDue_exclusive l)

@[simp] theorem execLegRelease_exclusive (l : Fin 64) : NextExclusive (execLegRelease l s) := by
  unfold execLegRelease
  dsimp only
  (repeat' split) <;> simp [h]

@[simp] theorem execComparatorCrossing_exclusive (c : Fin 64) (v : Int) :
    NextExclusive (execComparatorCrossing c v s) :=
  (nextExclusive_next _).2 <| forAll_exclusive (by simpa using h) fun d u hu => by
    split
    · exact State.rawEval_exclusive hu d
    · exact hu

@[simp] theorem execFltAssert_exclusive (l : Fin 64) : NextExclusive (execFltAssert l s) := by simp [execFltAssert, h]

@[simp] theorem execFltDeassert_exclusive (l : Fin 64) : NextExclusive (execFltDeassert l s) := by
  simp [execFltDeassert, h]

@[simp] theorem execComparatorSample_exclusive : NextExclusive (execComparatorSample s) := by
  unfold execComparatorSample
  split <;> simp [h]

@[simp] theorem execBlankWindowEnd_exclusive (c : Fin 64) : NextExclusive (execBlankWindowEnd c s) := by
  unfold execBlankWindowEnd
  split <;> simp [h]

@[simp] theorem execDacSettled_exclusive (c : Fin 64) : NextExclusive (execDacSettled c s) := by
  unfold execDacSettled
  split <;> simp [h]

@[simp] theorem execChokeGroupRelease_exclusive (g : Fin 16) : NextExclusive (execChokeGroupRelease g s) := by
  unfold execChokeGroupRelease
  split <;> simp [h]

@[simp] theorem execCgClr_exclusive (g : Fin 16) (a : Agent) : NextExclusive (execCgClr g a s) := by
  simp [execCgClr, h]

@[simp] theorem execCgForce_exclusive (g : Fin 16) (a : Agent) (on : Bool) :
    NextExclusive (execCgForce g a on s) := by
  unfold execCgForce
  split <;> simp [h]

@[simp] theorem execChoke_exclusive (r : Fin 128) : NextExclusive (execChoke r s) := by simp [execChoke, h]

@[simp] theorem execLatch_exclusive (r : Fin 128) : NextExclusive (execLatch r s) := by simp [execLatch, h]

@[simp] theorem execPost_exclusive (r : Fin 128) : NextExclusive (execPost r s) := by simp [execPost, h]

@[simp] theorem execTrigger_exclusive (r : Fin 128) : NextExclusive (execTrigger r s) := by simp [execTrigger, h]

@[simp] theorem execRouteForceLimp_exclusive (r : Fin 128) : NextExclusive (execRouteForceLimp r s) := by
  simp [execRouteForceLimp, h]

@[simp] theorem execDownbeat_exclusive (e : Fin 8) : NextExclusive (execDownbeat e s) := by simp [execDownbeat, h]

@[simp] theorem execPreloadPoint_exclusive (e : Fin 8) : NextExclusive (execPreloadPoint e s) := by
  simp [execPreloadPoint, h]

@[simp] theorem execDescriptorNop_exclusive (e : Fin 8) : NextExclusive (execDescriptorNop e s) := by
  simp [execDescriptorNop, h]

@[simp] theorem execStateWr_exclusive (e : Fin 8) : NextExclusive (execStateWr e s) := by simp [execStateWr, h]

@[simp] theorem execBankWr_exclusive (e : Fin 8) : NextExclusive (execBankWr e s) := by simp [execBankWr, h]

@[simp] theorem execStateRd_exclusive (e : Fin 8) : NextExclusive (execStateRd e s) := by simp [execStateRd, h]

@[simp] theorem execBankRd_exclusive (e : Fin 8) : NextExclusive (execBankRd e s) := by simp [execBankRd, h]

@[simp] theorem execBankReadComplete_exclusive (e : Fin 8) (stalled : Fin 6) :
    NextExclusive (execBankReadComplete e stalled s) := by
  unfold execBankReadComplete
  (repeat' split) <;> simp [h]

@[simp] theorem execInputDeadline_exclusive (e : Fin 8) (i : Fin 64) : NextExclusive (execInputDeadline e i s) := by
  unfold execInputDeadline
  split <;> simp [h]

@[simp] theorem execFenceReached_exclusive (e : Fin 8) : NextExclusive (execFenceReached e s) := by
  unfold execFenceReached
  split <;> simp [h]

@[simp] theorem execForceLimp_exclusive (e : Fin 8) (a : Agent) : NextExclusive (execForceLimp e a s) := by
  simp [execForceLimp, h]

@[simp] theorem execForceHrd_exclusive (e : Fin 8) (a : Agent) : NextExclusive (execForceHrd e a s) := by
  simp [execForceHrd, h]

@[simp] theorem execRelease_exclusive (e : Fin 8) (a : Agent) : NextExclusive (execRelease e a s) := by
  simp [execRelease, h]

@[simp] theorem execSampleWord_exclusive (p : Fin 16) (x : BitVec 64) : NextExclusive (execSampleWord p x s) := by
  simp [execSampleWord, h]

@[simp] theorem execPodSampleLand_exclusive (p : Fin 16) : NextExclusive (execPodSampleLand p s) := by
  unfold execPodSampleLand
  split <;> simp [h]

@[simp] theorem execHello_exclusive (p : Fin 16) (x : BitVec 64) : NextExclusive (execHello p x s) := by
  simp [execHello, h]

@[simp] theorem execStatus_exclusive (p : Fin 16) (x : BitVec 64) : NextExclusive (execStatus p x s) := by
  simp [execStatus, h]

@[simp] theorem execEchoRsp_exclusive (p : Fin 16) (x : BitVec 64) : NextExclusive (execEchoRsp p x s) := by
  unfold execEchoRsp
  rw [nextExclusive_next, State.receiveControl_pins]
  · exact h
  · intro w u
    split
    · split <;> simp
    · rfl

@[simp] theorem execWriteAck_exclusive (p : Fin 16) (x : BitVec 64) : NextExclusive (execWriteAck p x s) := by
  unfold execWriteAck
  rw [nextExclusive_next, State.receiveControl_pins]
  · exact h
  · intro w u
    split
    · simp
    split
    · split
      · split <;> simp
      · simp
      · rfl
    · rfl

@[simp] theorem execReadRsp_exclusive (p : Fin 16) (x : BitVec 64) : NextExclusive (execReadRsp p x s) := by
  simp [execReadRsp, h]

@[simp] theorem execAlarm_exclusive (p : Fin 16) (x : BitVec 64) : NextExclusive (execAlarm p x s) := by
  simp [execAlarm, h]

@[simp] theorem execBurstReceive_exclusive (p : Fin 16) (burst : BitVec 48) :
    NextExclusive (execBurstReceive p burst s) := by
  unfold execBurstReceive
  split <;> simp [h]

@[simp] theorem execSlEn_exclusive (p : Fin 16) (a : Agent) (on : Bool) : NextExclusive (execSlEn p a on s) := by
  unfold execSlEn
  split <;> simp [h]

@[simp] theorem execRetrain_exclusive (p : Fin 16) (a : Agent) : NextExclusive (execRetrain p a s) := by
  simp [execRetrain, h]

@[simp] theorem execChargeTimeout_exclusive (p : Fin 16) : NextExclusive (execChargeTimeout p s) := by
  unfold execChargeTimeout
  split <;> simp [h]

@[simp] theorem execChargeRetry_exclusive (p : Fin 16) : NextExclusive (execChargeRetry p s) := by
  simp [execChargeRetry, h]

@[simp] theorem execLinkSilence_exclusive (p : Fin 16) : NextExclusive (execLinkSilence p s) := by
  unfold execLinkSilence
  split <;> simp [h]

@[simp] theorem execPodAnswerTimeout_exclusive (p : Fin 16) : NextExclusive (execPodAnswerTimeout p s) := by
  unfold execPodAnswerTimeout
  dsimp only
  (repeat' split) <;> simp [h]

@[simp] theorem execBudgetWindowStart_exclusive (p : Fin 16) : NextExclusive (execBudgetWindowStart p s) := by
  simp [execBudgetWindowStart, h]

@[simp] theorem execCarrierCapCut_exclusive (p : Fin 16) : NextExclusive (execCarrierCapCut p s) := by
  simp [execCarrierCapCut, h]

@[simp] theorem execSlAccRead_exclusive (p : Fin 16) (a : Agent) (addr : BitVec 8) :
    NextExclusive (execSlAccRead p a addr s) := by
  simp [execSlAccRead, h]

@[simp] theorem execSlAccWrite_exclusive (p : Fin 16) (a : Agent) (addr : BitVec 8) (data : BitVec 16) :
    NextExclusive (execSlAccWrite p a addr data s) := by
  simp [execSlAccWrite, h]

@[simp] theorem execAlign_exclusive (p : Fin 16) (frame : BitVec 40) : NextExclusive (execAlign p frame s) := by
  simp [execAlign, h]

@[simp] theorem execEcho_exclusive (p : Fin 16) (frame : BitVec 40) : NextExclusive (execEcho p frame s) := by
  simp [execEcho, h]

@[simp] theorem execDownlinkWrite_exclusive (p : Fin 16) (frame : BitVec 40) :
    NextExclusive (execDownlinkWrite p frame s) := by
  simp [execDownlinkWrite, h]

@[simp] theorem execDownlinkRead_exclusive (p : Fin 16) (frame : BitVec 40) (live : PodLive) :
    NextExclusive (execDownlinkRead p frame live s) := by
  simp [execDownlinkRead, h]

@[simp] theorem execDownlinkReset_exclusive (p : Fin 16) (frame : BitVec 40) (still : BitVec 8) :
    NextExclusive (execDownlinkReset p frame still s) := by
  simp [execDownlinkReset, h]

@[simp] theorem execPodOutput_exclusive (p : Fin 16) (c : Fin 4) (value : BitVec 24) (overload : Bool) :
    NextExclusive (execPodOutput p c value overload s) := by
  unfold execPodOutput
  dsimp only
  (repeat' split) <;> simp [h]

@[simp] theorem execUplinkWordStart_exclusive (p : Fin 16) (live : PodLive) :
    NextExclusive (execUplinkWordStart p live s) := by
  unfold execUplinkWordStart
  dsimp only
  (repeat' split) <;> simp [h]

@[simp] theorem execStatusDue_exclusive (p : Fin 16) : NextExclusive (execStatusDue p s) := by simp [execStatusDue, h]

@[simp] theorem execPodPgRise_exclusive (p : Fin 16) : NextExclusive (execPodPgRise p s) := by simp [execPodPgRise, h]

@[simp] theorem execPodPgFall_exclusive (p : Fin 16) : NextExclusive (execPodPgFall p s) := by simp [execPodPgFall, h]

@[simp] theorem execMeasureLevelCross_exclusive (p : Fin 16) (above : Bool) :
    NextExclusive (execMeasureLevelCross p above s) := by
  simp [execMeasureLevelCross, h]

@[simp] theorem execCarrierLoss_exclusive (p : Fin 16) : NextExclusive (execCarrierLoss p s) := by
  unfold execCarrierLoss
  split <;> simp [h]

@[simp] theorem execDarkTimeout_exclusive (p : Fin 16) (live : PodLive) :
    NextExclusive (execDarkTimeout p live s) := by
  unfold execDarkTimeout
  dsimp only
  split <;> simp [h]

@[simp] theorem execPhaseLock_exclusive (p : Fin 16) : NextExclusive (execPhaseLock p s) := by simp [execPhaseLock, h]

@[simp] theorem execAltRelease_exclusive (p : Fin 16) : NextExclusive (execAltRelease p s) := by
  simp [execAltRelease, h]

@[simp] theorem execPodAlarmRaise_exclusive (p : Fin 16) (bits_ : BitVec 8) :
    NextExclusive (execPodAlarmRaise p bits_ s) := by
  simp [execPodAlarmRaise, h]

@[simp] theorem execActiveBurst_exclusive (p : Fin 16) (live : PodLive) :
    NextExclusive (execActiveBurst p live s) := by
  unfold execActiveBurst
  dsimp only
  split <;> simp [h]

@[simp] theorem execRunSet_exclusive (e : Fin 8) (a : Agent) : NextExclusive (execRunSet e a s) := by
  simp [execRunSet, h]

@[simp] theorem execRunClear_exclusive (e : Fin 8) (a : Agent) : NextExclusive (execRunClear e a s) := by
  simp [execRunClear, h]

@[simp] theorem execSwapTimeReached_exclusive : NextExclusive (execSwapTimeReached s) := by
  simp [execSwapTimeReached, h]

@[simp] theorem execOwnerWrite_exclusive (a : Agent) (addr : BitVec 24) (value : BitVec 32) :
    NextExclusive (execOwnerWrite a addr value s) := by
  simp [execOwnerWrite, h]

@[simp] theorem execEaselReset_exclusive (e : Fin 8) (cause : ResetCause) :
    NextExclusive (execEaselReset e cause s) := by
  simp [execEaselReset, h]

@[simp] theorem execEaselResetComplete_exclusive (e : Fin 8) : NextExclusive (execEaselResetComplete e s) := by
  unfold execEaselResetComplete
  split <;> simp [h]

@[simp] theorem execBtestResume_exclusive (e : Fin 8) (a : Agent) : NextExclusive (execBtestResume e a s) := by
  simp [execBtestResume, h]

@[simp] theorem execF0RingEn_exclusive (a : Agent) (on : Bool) : NextExclusive (execF0RingEn a on s) := by
  simp [execF0RingEn, h]

@[simp] theorem execFunctionLevelReset_exclusive (fn : Fin 9) : NextExclusive (execFunctionLevelReset fn s) := by
  unfold execFunctionLevelReset
  split <;> simp [h]

@[simp] theorem execPreload_exclusive (e : Fin 8) (a : Agent) (on : Bool) : NextExclusive (execPreload e a on s) := by
  simp [execPreload, h]

@[simp] theorem execDoorbellReadComplete_exclusive (e : Fin 8) (hcb : Option (Vector (BitVec 64) 4)) :
    NextExclusive (execDoorbellReadComplete e hcb s) := by
  unfold execDoorbellReadComplete
  (repeat' split) <;> simp [h]

@[simp] theorem execDescriptorAccept_exclusive (e : Fin 8) (d : Vector (BitVec 64) 8) :
    NextExclusive (execDescriptorAccept e d s) := by
  unfold execDescriptorAccept
  dsimp only
  (repeat' split) <;> simp [h]

@[simp] theorem execDmaReadFail_exclusive (e : Fin 8) : NextExclusive (execDmaReadFail e s) := by
  unfold execDmaReadFail
  dsimp only
  split <;> simp [h]

@[simp] theorem execHeadPoll_exclusive (ring : RingId) : NextExclusive (execHeadPoll ring s) := by
  unfold execHeadPoll
  split <;> simp [h]

@[simp] theorem execHeadPollComplete_exclusive (ring : RingId) (heads : Option (Vector (BitVec 64) 3)) :
    NextExclusive (execHeadPollComplete ring heads s) := by
  unfold execHeadPollComplete
  (repeat' split) <;> simp [h]

@[simp] theorem execCompletionWrite_exclusive (e : Fin 8) : NextExclusive (execCompletionWrite e s) := by
  simp [execCompletionWrite, h]

@[simp] theorem execStagingDrain_exclusive (ring : RingId) (kind : StageKind) :
    NextExclusive (execStagingDrain ring kind s) := by
  unfold execStagingDrain
  split <;> simp [h]

@[simp] theorem execImageDmaComplete_exclusive (data : Option (List (BitVec 64))) :
    NextExclusive (execImageDmaComplete data s) := by
  unfold execImageDmaComplete
  (repeat' split) <;> simp [h]

@[simp] theorem execSupplyHoldEnter_exclusive (k : Fin 4) : NextExclusive (execSupplyHoldEnter k s) := by
  unfold execSupplyHoldEnter
  (repeat' split) <;> simp [h]

@[simp] theorem execSupplyResume_exclusive (k : Fin 4) : NextExclusive (execSupplyResume k s) := by
  simp [execSupplyResume, h]

@[simp] theorem execSupplyRestored_exclusive (k : Fin 4) : NextExclusive (execSupplyRestored k s) := by
  simp [execSupplyRestored, h]

@[simp] theorem execSupplyLevelCross_exclusive (k : Fin 4) (level : SupplyLevel) :
    NextExclusive (execSupplyLevelCross k level s) := by
  simp [execSupplyLevelCross, h]

@[simp] theorem execDeviceReset_exclusive (cause : DeviceResetCause) : NextExclusive (execDeviceReset cause s) := by
  unfold execDeviceReset
  split <;> simp [h]

omit h in
@[simp] theorem execNrstAssert_exclusive : NextExclusive (execNrstAssert s) := by simp [execNrstAssert]

@[simp] theorem execNrstSecond_exclusive : NextExclusive (execNrstSecond s) := by simp [execNrstSecond, h]

@[simp] theorem execResetRelease_exclusive : NextExclusive (execResetRelease s) := by
  unfold execResetRelease
  (repeat' split) <;> simp [h]

@[simp] theorem execBootDone_exclusive (fuseErr schedFail : Bool) (bistFail : BitVec 8) :
    NextExclusive (execBootDone fuseErr schedFail bistFail s) := by
  simp [execBootDone, h]

@[simp] theorem execBackupPowerOn_exclusive : NextExclusive (execBackupPowerOn s) := by simp [execBackupPowerOn, h]

@[simp] theorem execVbatTest_exclusive (beforeMv loadMv : Nat) : NextExclusive (execVbatTest beforeMv loadMv s) := by
  unfold execVbatTest
  split <;> simp [h]

@[simp] theorem execWatchdogEnable_exclusive (w : Fin 9) (a : Agent) : NextExclusive (execWatchdogEnable w a s) := by
  simp [execWatchdogEnable, h]

@[simp] theorem execWatchdogKey_exclusive (w : Fin 9) (a : Agent) (key : BitVec 32) :
    NextExclusive (execWatchdogKey w a key s) := by
  simp [execWatchdogKey, h]

@[simp] theorem execWatchdogLate_exclusive (w : Fin 9) : NextExclusive (execWatchdogLate w s) := by
  unfold execWatchdogLate
  split <;> simp [h]

@[simp] theorem execDwdResetDelay_exclusive : NextExclusive (execDwdResetDelay s) := by simp [execDwdResetDelay, h]

@[simp] theorem execClkmon_exclusive (condition : Fin 3) : NextExclusive (execClkmon condition s) := by
  unfold execClkmon
  refine NextExclusive.ite ((nextExclusive_next s).2 h) ((nextExclusive_next _).2 ?_)
  refine forAll_exclusive (State.safeEnter_exclusive (by simpa using h) _) fun w u hu => ?_
  split
  · exact State.wdFault_exclusive hu w _
  · exact hu

@[simp] theorem execKillAssert_exclusive : NextExclusive (execKillAssert s) := by
  unfold execKillAssert
  dsimp only
  (repeat' split) <;> simp [h]

@[simp] theorem execKillDeassert_exclusive : NextExclusive (execKillDeassert s) := by simp [execKillDeassert, h]

@[simp] theorem execSafeClr_exclusive (a : Agent) : NextExclusive (execSafeClr a s) := by simp [execSafeClr, h]

@[simp] theorem execSpLock_exclusive (a : Agent) : NextExclusive (execSpLock a s) := by simp [execSpLock, h]

@[simp] theorem execLockSet_exclusive (a : Agent) (groups : BitVec 10) : NextExclusive (execLockSet a groups s) := by
  simp [execLockSet, h]

@[simp] theorem execKeyProg_exclusive (a : Agent) (slot : Fin 4) : NextExclusive (execKeyProg a slot s) := by
  simp [execKeyProg, h]

@[simp] theorem execKeyBurnDone_exclusive : NextExclusive (execKeyBurnDone s) := by
  unfold execKeyBurnDone
  split <;> simp [h]

@[simp] theorem execKeyRevoke_exclusive (a : Agent) (slot : Fin 4) : NextExclusive (execKeyRevoke a slot s) := by
  simp [execKeyRevoke, h]

@[simp] theorem execDebugOpen_exclusive (a : Agent) (on : Bool) : NextExclusive (execDebugOpen a on s) := by
  simp [execDebugOpen, h]

@[simp] theorem execDebugBlow_exclusive (a : Agent) : NextExclusive (execDebugBlow a s) := by simp [execDebugBlow, h]

@[simp] theorem execDbgLockBlown_exclusive : NextExclusive (execDbgLockBlown s) := by simp [execDbgLockBlown, h]

@[simp] theorem execTempoWindowEnd_exclusive (trips : Vector Nat 16) :
    NextExclusive (execTempoWindowEnd trips s) := by
  unfold execTempoWindowEnd
  dsimp only
  (repeat' split) <;> simp [h]

@[simp] theorem execFineCalibration_exclusive (n : BitVec 9) : NextExclusive (execFineCalibration n s) := by
  unfold execFineCalibration
  split <;> simp [h]

@[simp] theorem execBoscTrim_exclusive (word : Int) : NextExclusive (execBoscTrim word s) := by
  unfold execBoscTrim
  (repeat' split) <;> simp [h]

@[simp] theorem execRefBlendStep_exclusive : NextExclusive (execRefBlendStep s) := by simp [execRefBlendStep, h]

@[simp] theorem execRefBlendComplete_exclusive : NextExclusive (execRefBlendComplete s) := by
  simp [execRefBlendComplete, h]

@[simp] theorem execTrefLoss_exclusive (seen : TrefView) : NextExclusive (execTrefLoss seen s) := by
  unfold execTrefLoss
  split <;> simp [h]

@[simp] theorem execQualifyStart_exclusive : NextExclusive (execQualifyStart s) := by simp [execQualifyStart, h]

@[simp] theorem execQualifyCycle_exclusive (periodPs : Nat) : NextExclusive (execQualifyCycle periodPs s) := by
  simp [execQualifyCycle, h]

@[simp] theorem execTrefQualified_exclusive (span : Nat) (word : Int) :
    NextExclusive (execTrefQualified span word s) := by
  simp [execTrefQualified, h]

@[simp] theorem execTrefModeWrite_exclusive (a : Agent) (mode : BitVec 2) :
    NextExclusive (execTrefModeWrite a mode s) := by
  simp [execTrefModeWrite, h]

@[simp] theorem execTrefEnWrite_exclusive (a : Agent) (on : Bool) : NextExclusive (execTrefEnWrite a on s) := by
  simp [execTrefEnWrite, h]

@[simp] theorem execForceBoscWrite_exclusive (a : Agent) (on : Bool) : NextExclusive (execForceBoscWrite a on s) := by
  simp [execForceBoscWrite, h]

@[simp] theorem execAngleArm_exclusive (k : Fin 40) : NextExclusive (execAngleArm k s) := by
  unfold execAngleArm
  split <;> simp [h]

@[simp] theorem execWheelCorrection_exclusive : NextExclusive (execWheelCorrection s) := by
  unfold execWheelCorrection
  dsimp only
  split <;> simp [h]

@[simp] theorem execCoastExpire_exclusive : NextExclusive (execCoastExpire s) := by
  unfold execCoastExpire
  split
  · split
    · next u hu => simp [State.reachAdvance_exclusive h hu]
    · simp [h]
  · simp [h]

@[simp] theorem execLimpLost_exclusive : NextExclusive (execLimpLost s) := by
  unfold execLimpLost
  split
  · split
    · next u hu => simp [State.reachAdvance_exclusive h hu]
    · simp [h]
  · simp [h]

@[simp] theorem execWheelBlendStep_exclusive : NextExclusive (execWheelBlendStep s) := by
  unfold execWheelBlendStep
  split
  · split
    · next u hu => simp [State.reachAdvance_exclusive h hu]
    · simp [h]
  · simp [h]

@[simp] theorem execPrimaryQualified_exclusive : NextExclusive (execPrimaryQualified s) := by
  unfold execPrimaryQualified
  split
  · split
    · next u hu =>
      refine NextExclusive.ite (by simp [h]) ?_
      rw [nextExclusive_next, State.blendStart_pins]
      exact State.reachAdvance_exclusive h hu
    · simp [h]
  · simp [h]

@[simp] theorem execAngleEventFire_exclusive (k : Fin 40) : NextExclusive (execAngleEventFire k s) := by
  unfold execAngleEventFire
  (repeat' split) <;> simp [h]

@[simp] theorem execTileRunStart_exclusive (t : Fin 16) : NextExclusive (execTileRunStart t s) := by
  unfold execTileRunStart
  (repeat' split) <;> simp [h]

@[simp] theorem execNop_exclusive (t : Fin 16) : NextExclusive (execNop t s) := by simp [execNop, h]

@[simp] theorem execMov_exclusive (t : Fin 16) : NextExclusive (execMov t s) := by simp [execMov, h]

@[simp] theorem execAdd_exclusive (t : Fin 16) : NextExclusive (execAdd t s) := by simp [execAdd, h]

@[simp] theorem execSub_exclusive (t : Fin 16) : NextExclusive (execSub t s) := by simp [execSub, h]

@[simp] theorem execMin_exclusive (t : Fin 16) : NextExclusive (execMin t s) := by simp [execMin, h]

@[simp] theorem execMax_exclusive (t : Fin 16) : NextExclusive (execMax t s) := by simp [execMax, h]

@[simp] theorem execAbs_exclusive (t : Fin 16) : NextExclusive (execAbs t s) := by simp [execAbs, h]

@[simp] theorem execNeg_exclusive (t : Fin 16) : NextExclusive (execNeg t s) := by simp [execNeg, h]

@[simp] theorem execClamp_exclusive (t : Fin 16) : NextExclusive (execClamp t s) := by simp [execClamp, h]

@[simp] theorem execSel_exclusive (t : Fin 16) : NextExclusive (execSel t s) := by simp [execSel, h]

@[simp] theorem execCmplt_exclusive (t : Fin 16) : NextExclusive (execCmplt t s) := by simp [execCmplt, h]

@[simp] theorem execCmple_exclusive (t : Fin 16) : NextExclusive (execCmple t s) := by simp [execCmple, h]

@[simp] theorem execShl_exclusive (t : Fin 16) : NextExclusive (execShl t s) := by simp [execShl, h]

@[simp] theorem execShr_exclusive (t : Fin 16) : NextExclusive (execShr t s) := by simp [execShr, h]

@[simp] theorem execLdi_exclusive (t : Fin 16) : NextExclusive (execLdi t s) := by simp [execLdi, h]

@[simp] theorem execMacz_exclusive (t : Fin 16) : NextExclusive (execMacz t s) := by simp [execMacz, h]

@[simp] theorem execMac_exclusive (t : Fin 16) : NextExclusive (execMac t s) := by simp [execMac, h]

@[simp] theorem execMsu_exclusive (t : Fin 16) : NextExclusive (execMsu t s) := by simp [execMsu, h]

@[simp] theorem execAccst_exclusive (t : Fin 16) : NextExclusive (execAccst t s) := by simp [execAccst, h]

@[simp] theorem execMuls32_exclusive (t : Fin 16) : NextExclusive (execMuls32 t s) := by simp [execMuls32, h]

@[simp] theorem execInteg_exclusive (t : Fin 16) : NextExclusive (execInteg t s) := by
  obtain ⟨read, hread, hr⟩ := State.exists_readMem
  unfold execInteg
  rw [hread]
  exact (nextExclusive_next _).2 (State.slot_exclusive h t _ fun e w u => by simp [hr])

@[simp] theorem execSin_exclusive (t : Fin 16) : NextExclusive (execSin t s) := by simp [execSin, h]

@[simp] theorem execCos_exclusive (t : Fin 16) : NextExclusive (execCos t s) := by simp [execCos, h]

@[simp] theorem execChk_exclusive (t : Fin 16) : NextExclusive (execChk t s) := by simp [execChk, h]

end

/-! ### What a write or a read of a register does, from the host and from the safety port -/

theorem after_exclusive {o : Host.Outcome State Fault Refusal} {s : State} (h : Exclusive s.pins)
    (ho : NextExclusive o) :
    Exclusive (after o s).pins := by
  cases o with
  | next t => exact ho t rfl
  | fault f => exact h
  | refused r => exact h

theorem Exclusive.whenAfter {s : State} (h : Exclusive s.pins) {f : State → Host.Outcome State Fault Refusal}
    (hf : ∀ {u : State}, Exclusive u.pins → NextExclusive (f u)) {c : Prop} [Decidable c] :
    Exclusive (if c then after (f s) s else s).pins :=
  h.when (after_exclusive h (hf h))

@[simp] theorem Write.window_exclusive {s : State} (h : Exclusive s.pins) (x : Write) (e : Fin 8) (o : Nat) :
    Exclusive (x.window e o s).pins := by
  unfold Write.window
  refine .either (by simp [h]) ?_
  refine .either (by simp [h]) ?_
  refine .either (by simp [h]) ?_
  refine .either (by simp [h]) ?_
  refine .either (by simp [h]) ?_
  refine .either (by simp [h]) ?_
  refine .either (h.whenAfter fun hu => execLedgerAbort_exclusive hu e _) ?_
  refine .either (after_exclusive h (execWatchdogKey_exclusive h _ _ _)) ?_
  simp [h]

@[simp] theorem Write.low_exclusive {s : State} (h : Exclusive s.pins) (x : Write) (t : Nat) :
    Exclusive (x.low t s).pins := by
  unfold Write.low
  refine .either (by simp [h]) ?_
  refine .either (((h.whenAfter fun hu => execTrefModeWrite_exclusive hu _ _).whenAfter fun hu =>
      execTrefEnWrite_exclusive hu _ _).whenAfter fun hu => execForceBoscWrite_exclusive hu _ _) ?_
  refine .either ((h.whenAfter fun hu => execImageLoad_exclusive hu _).whenAfter fun hu => execSwap_exclusive hu _) ?_
  refine .either (forAll_exclusive h fun e u hu => hu.when (State.resetBegin_exclusive hu e _)) ?_
  refine .either (by simp [h]) ?_
  refine .either (by simp [h]) ?_
  refine .either (h.whenAfter fun hu => execLedgerAbort_exclusive hu _ _) ?_
  exact .either (after_exclusive h (execLdgSelWrite_exclusive h _ _)) h

@[simp] theorem Write.conversion_exclusive {s : State} (h : Exclusive s.pins) (x : Write) (r : RegRow) (t : Nat) :
    Exclusive (x.conversion r t s).pins := by
  have he : Exclusive s.eventSet.pins := by simpa using h
  unfold Write.conversion
  refine .either (he.whenAfter fun hu => execCal_exclusive hu _ _) ?_
  refine .either he ?_
  refine .either (by simpa using h) ?_
  refine .either ((h.whenAfter fun hu => execSlEn_exclusive hu _ _ _).whenAfter fun hu => execRetrain_exclusive hu _ _) ?_
  exact .either
    ((h.whenAfter fun hu => execSlAccRead_exclusive hu _ _ _).whenAfter fun hu => execSlAccWrite_exclusive hu _ _ _ _) h

@[simp] theorem Write.fltPol_exclusive {s : State} (h : Exclusive s.pins) (x : Write) (l : Fin 64) :
    Exclusive (x.fltPol l s).pins := by
  simp [Write.fltPol, h]

@[simp] theorem Write.outMode_exclusive {s : State} (h : Exclusive s.pins) (x : Write) (l : Fin 64) :
    Exclusive (x.outMode l s).pins := by
  simp [Write.outMode, h]

@[simp] theorem Write.power_exclusive {s : State} (h : Exclusive s.pins) (x : Write) (r : RegRow) (t : Nat) :
    Exclusive (x.power r t s).pins := by
  unfold Write.power
  refine .either (by simp [h]) ?_
  refine .either (by simp [h]) ?_
  refine .either (by simp [h]) ?_
  refine .either (by simp [h]) ?_
  refine .either (by simp [h]) ?_
  refine .either (forAll_exclusive h fun l u hu => State.regroup_exclusive hu l) ?_
  refine .either ((h.whenAfter fun hu => execCgForce_exclusive hu _ _ _).whenAfter fun hu => execCgClr_exclusive hu _ _) ?_
  exact .either (by simpa using h) h

@[simp] theorem Write.grid_exclusive {s : State} (h : Exclusive s.pins) (x : Write) (r : RegRow) (t : Nat) :
    Exclusive (x.grid r t s).pins := by
  have hg : ∀ es, Exclusive (if x.has 0 then (s.hostErrors es).setGfEn (x.bit 0) else s.hostErrors es).pins := by simp [h]
  unfold Write.grid
  refine .either (h.whenAfter fun hu => execWheelEn_exclusive hu _ _) ?_
  refine .either (by simpa using h) ?_
  refine .either ((((hg _).whenAfter fun hu => execTapNow_exclusive hu _).whenAfter fun hu =>
      execTripClr_exclusive hu _).whenAfter fun hu => execIslClr_exclusive hu _) ?_
  refine .either (by simp [h]) ?_
  refine .either (by simp [h]) ?_
  refine .either (by simp [h]) ?_
  refine .either (by simp [h]) ?_
  refine .either (by simp [h]) ?_
  exact .either (h.whenAfter fun hu => execDschClr_exclusive hu _) h

@[simp] theorem Write.supervision_exclusive {s : State} (h : Exclusive s.pins) (x : Write) (r : RegRow) (t : Nat) :
    Exclusive (x.supervision r t s).pins := by
  unfold Write.supervision
  refine .either (by simp [h]) ?_
  refine .either (by simp [h]) ?_
  refine .either (after_exclusive h (execWatchdogKey_exclusive h _ _ _)) ?_
  refine .either (by simp [h]) ?_
  refine .either (by simp [h]) ?_
  refine .either (by simp [h]) ?_
  exact .either (by simp [h]) h

@[simp] theorem Write.act_exclusive {s : State} (h : Exclusive s.pins) (x : Write) (r : RegRow) (t : Nat) :
    Exclusive (x.act r t s).pins := by
  unfold Write.act
  split
  · exact Write.window_exclusive h x _ _
  split
  · exact Write.low_exclusive h x t
  split
  · exact Write.conversion_exclusive h x r t
  split
  · exact Write.power_exclusive h x r t
  split
  · exact Write.grid_exclusive h x r t
  · exact Write.supervision_exclusive h x r t

@[simp] theorem State.setUpError_exclusive {s : State} (h : Exclusive s.pins) (t : Nat) :
    Exclusive (s.setUpError t).pins := by
  simp [State.setUpError, h]

@[simp] theorem State.recount_pins (s : State) (t w v : Nat) : (s.recount t w v).pins = s.pins := by
  simp [State.recount]

@[simp] theorem State.applyWrite_exclusive {s : State} (h : Exclusive s.pins) (a : Agent) (r : RegRow) (t w v : Nat) :
    Exclusive (s.applyWrite a r t w v).pins := by
  unfold State.applyWrite
  dsimp only
  split <;> simp [h]

@[simp] theorem State.writeRegister_exclusive {s : State} (h : Exclusive s.pins) (a : Agent) (addr : Nat)
    (be : BitVec 4) (v : Reg) :
    Exclusive (s.writeRegister a addr be v).pins := by
  unfold State.writeRegister
  (repeat' split) <;> simp [h]

@[simp] theorem State.capture_pins (s : State) (a : Agent) (t : Nat) : (s.capture a t).pins = s.pins := by
  simp [State.capture]

@[simp] theorem State.readRegister_pins (s : State) (a : Agent) (addr : Nat) (be : BitVec 4) :
    (s.readRegister a addr be).2.pins = s.pins := by
  unfold State.readRegister
  (repeat' split) <;> simp

@[simp] theorem State.spAnswer_pins (s : State) (f : BitVec 32) (rsp payload : Nat) :
    (s.spAnswer f rsp payload).pins = s.pins := by
  simp [State.spAnswer]

@[simp] theorem State.spClose_pins (s : State) : s.spClose.pins = s.pins := by simp [State.spClose]

@[simp] theorem State.spStatusAnswer_pins (s : State) (f : BitVec 32) : (s.spStatusAnswer f).pins = s.pins := by
  simp [State.spStatusAnswer]

@[simp] theorem State.spFrame_pins (s : State) (op : Nat) (f : BitVec 32) {act : State → State}
    (ha : ∀ u, (act u).pins = u.pins) :
    (s.spFrame op f act).pins = s.pins := by
  simp [State.spFrame, ha]

@[simp] theorem State.spFrame_exclusive {s : State} (h : Exclusive s.pins) (op : Nat) (f : BitVec 32)
    {act : State → State} (ha : ∀ u, Exclusive u.pins → Exclusive (act u).pins) :
    Exclusive (s.spFrame op f act).pins := by
  unfold State.spFrame
  split
  · exact h
  dsimp only
  split
  · simpa using h
  split
  · simpa using h
  · exact ha _ (by simpa using h)

@[simp] theorem State.spNopAct_pins (s : State) (f : BitVec 32) : (s.spNopAct f).pins = s.pins := by
  unfold State.spNopAct
  split <;> simp

@[simp] theorem State.spReadAct_pins (s : State) (f : BitVec 32) : (s.spReadAct f).pins = s.pins := by
  simp [State.spReadAct]

@[simp] theorem State.spDataHiAct_pins (s : State) (f : BitVec 32) : (s.spDataHiAct f).pins = s.pins := by
  unfold State.spDataHiAct
  split <;> simp

@[simp] theorem State.spDataLoAct_exclusive {s : State} (h : Exclusive s.pins) (f : BitVec 32) :
    Exclusive (s.spDataLoAct f).pins := by
  unfold State.spDataLoAct
  (repeat' split) <;> simp [h]

@[simp] theorem State.spKillAct_exclusive {s : State} (h : Exclusive s.pins) (f : BitVec 32) :
    Exclusive (s.spKillAct f).pins := by
  simp [State.spKillAct, h]

/-! ### Commands that access registers, and frames of the safety port -/

section

variable {s : State} (h : Exclusive s.pins)
include h

@[simp] theorem execSetupRegisterWrite_exclusive (a : Agent) (addr : BitVec 24) (be : BitVec 4) (value : BitVec 32) :
    NextExclusive (execSetupRegisterWrite a addr be value s) := by
  simp [execSetupRegisterWrite, h]

@[simp] theorem execCaptureRead_exclusive (a : Agent) (addr : BitVec 24) (be : BitVec 4) :
    NextExclusive (execCaptureRead a addr be s) := by
  simp [execCaptureRead, h]

@[simp] theorem execSpNop_exclusive (frame : BitVec 32) : NextExclusive (execSpNop frame s) := by simp [execSpNop, h]

@[simp] theorem execSpRead_exclusive (frame : BitVec 32) : NextExclusive (execSpRead frame s) := by
  simp [execSpRead, h]

@[simp] theorem execSpWrite_exclusive (frame : BitVec 32) : NextExclusive (execSpWrite frame s) := by
  simp [execSpWrite, h]

@[simp] theorem execDataHi_exclusive (frame : BitVec 32) : NextExclusive (execDataHi frame s) := by
  simp [execDataHi, h]

@[simp] theorem execDataLo_exclusive (frame : BitVec 32) : NextExclusive (execDataLo frame s) :=
  (nextExclusive_next _).2 (State.spFrame_exclusive h 4 frame fun _ hu => State.spDataLoAct_exclusive hu frame)

@[simp] theorem execKill_exclusive (frame : BitVec 32) : NextExclusive (execKill frame s) :=
  (nextExclusive_next _).2 (State.spFrame_exclusive h 5 frame fun _ hu => State.spKillAct_exclusive hu frame)

end

/-! ### A step -/

theorem exec_exclusive {s : State} (h : Exclusive s.pins) (c : Instr) : NextExclusive (exec c s) := by
  cases c <;> simp [exec, h]

theorem step_exclusive {s : State} (h : Exclusive s.pins) : NextExclusive (step s) := by
  unfold step
  split
  · exact exec_exclusive (by simpa using h) _
  · exact (nextExclusive_next _).2 (State.elapse_exclusive h 1)

/-- Settles O4: every command keeps the pins of every leg exclusive, and so does a fine tick that passes. -/
theorem pinsStayExclusive : Obligations.PinsStayExclusive := by
  unfold Obligations.PinsStayExclusive
  intro s t hs ht
  exact t.exclusive_pins.1 (step_exclusive (s.exclusive_pins.2 hs) t ht)

end Sys2Proof.Machine
